-- ==== Sys2Proof/Word.lean ====
section
/-! DEFINITION. The widths the spec gives its quantities (00_scope.md R9; 10_state.md R31 to R34; 30_encoding.md R90, R93).
Nothing is signed. -/

namespace Sys2Proof

/-- A byte, bit 7 the most significant (R9). -/
abbrev Byte := BitVec 8

/-- A pixel width, height or coordinate: 16 bits (10_state.md R31, 92_eei_decisions.md D17). -/
abbrev Coord := BitVec 16

/-- A bus symbol as 9 bits, the level of DC in bit 8 and the byte below it (R90). -/
abbrev Symbol := BitVec 9

/-- A host operation word, the operation code in bits 10 to 8 and the operand byte below it (R93). -/
abbrev HostWord := BitVec 11

/-- One byte on the bus together with the level of DC during it (00_scope.md R17): false is a command, true is data. -/
abbrev Sym := Bool × Byte

end Sys2Proof
end

