-- ==== Sys2Proof/Config.lean ====
section
/-! DEFINITION. The parameters of the engine (00_scope.md R6, 10_state.md R38) and the free values: what the spec requires
to exist and does not state. An `opaque` constant has no body: nothing in the model can see its value. -/

namespace Sys2Proof.Config

/-! ### Fixed parameters (the first table of R6) -/

/-- PANEL_W, the panel's width in pixels. -/
def panelW : Coord := 122
/-- PANEL_H, the panel's height in rows. -/
def panelH : Coord := 250
/-- BPP, bits per pixel. -/
def bpp : Nat := 1
/-- FB_LEN, the bytes of the packed buffer of this panel. -/
def fbLen : Nat := 4000
/-- BLACK, all bits clear. -/
def black : Byte := 0x00
/-- WHITE, all bits set. -/
def white : Byte := 0xFF
/-- UPDATE_SEQ, "full refresh with all stages enabled". -/
def updateSeq : Byte := 0xF7
/-- T_RST_HIGH1, the first reset-high hold, in milliseconds. -/
def tRstHigh1 : Nat := 20
/-- T_RST_LOW, the reset-low hold, in milliseconds. -/
def tRstLow : Nat := 2
/-- T_RST_HIGH2, the second reset-high hold, in milliseconds. -/
def tRstHigh2 : Nat := 20
/-- T_POLL, the busy poll interval, in milliseconds. -/
def tPoll : Nat := 10
/-- F_SCLK, the serial clock rate in hertz. -/
def fSclk : Nat := 4000000
/-- SPI_MODE: clock idle low, sample on rising edge. -/
def spiMode : Nat := 0
/-- SPI_BITS, bits per transfer. -/
def spiBits : Nat := 8
/-- BUSY_ACTIVE: high is busy. -/
def busyActive : Bool := true
/-- CS_ACTIVE: chip-select is active low. -/
def csActive : Bool := false
/-- DC_COMMAND: low is command. -/
def dcCommand : Bool := false
/-- DC_DATA: high is data. -/
def dcData : Bool := true

end Sys2Proof.Config

namespace Sys2Proof

/-- The rotation of a canvas, "0/90/180/270 degrees" (10_state.md R31). -/
inductive Rotation where
  | r0 | r90 | r180 | r270
deriving DecidableEq, Repr

/-- The two-bit encoding of `reg.ROT` (10_state.md R31). -/
def Rotation.code : Rotation → BitVec 2
  | .r0 => 0
  | .r90 => 1
  | .r180 => 2
  | .r270 => 3

/-- The OPEN and decided parameters (the second table of R6), constant for the life of the engine (R38).
A state carries them in one field that no step writes (log 1). -/
structure Params where
  /-- GATE_SCAN, third data byte of command 0x01. -/
  gateScan : Byte
  /-- DATA_ENTRY_MODE, data byte of command 0x11. -/
  dataEntryMode : Byte
  /-- BORDER_WAVEFORM, data byte of command 0x3C. -/
  borderWaveform : Byte
  /-- UPDATE_CTRL_A, first data byte of command 0x21. -/
  updateCtrlA : Byte
  /-- UPDATE_CTRL_B, second data byte of command 0x21. -/
  updateCtrlB : Byte
  /-- TEMP_SENSOR, data byte of command 0x18. -/
  tempSensor : Byte
  /-- SLEEP_MODE, data byte of command 0x10. -/
  sleepMode : Byte
  /-- ROT, the rotation handed to the builder. -/
  rot : Rotation
  /-- MODEL_ID_PROFILE0, the one recognised model identifier. -/
  modelIdProfile0 : Byte
  /-- BUSY_TIMEOUT_POLLS: none is the spec's NONE. -/
  busyTimeoutPolls : Option Nat
  /-- PIXEL_MSB_FIRST: is the leftmost pixel of a byte its bit 7. -/
  pixelMsbFirst : Bool
deriving DecidableEq, Repr

end Sys2Proof

namespace Sys2Proof.Config

/-! ### Free values of the OPEN parameters (93_implementation_defined.md U13; log 1) -/

/-- GATE_SCAN is OPEN. -/
opaque gateScan : Byte
/-- DATA_ENTRY_MODE is OPEN. -/
opaque dataEntryMode : Byte
/-- BORDER_WAVEFORM is OPEN. -/
opaque borderWaveform : Byte
/-- UPDATE_CTRL_A is OPEN. -/
opaque updateCtrlA : Byte
/-- UPDATE_CTRL_B is OPEN. -/
opaque updateCtrlB : Byte
/-- TEMP_SENSOR is OPEN. -/
opaque tempSensor : Byte
/-- SLEEP_MODE is OPEN. -/
opaque sleepMode : Byte
/-- MODEL_ID_PROFILE0 is OPEN. -/
opaque modelIdProfile0 : Byte
/-- PIXEL_MSB_FIRST is OPEN. -/
opaque pixelMsbFirst : Bool

/-- The parameters of the engine as it leaves reset: the OPEN ones free, ROT and BUSY_TIMEOUT_POLLS at the defaults
that 92_eei_decisions.md D11 and D16 give. -/
def params : Params where
  gateScan := gateScan
  dataEntryMode := dataEntryMode
  borderWaveform := borderWaveform
  updateCtrlA := updateCtrlA
  updateCtrlB := updateCtrlB
  tempSensor := tempSensor
  sleepMode := sleepMode
  rot := .r0
  modelIdProfile0 := modelIdProfile0
  busyTimeoutPolls := none
  pixelMsbFirst := pixelMsbFirst

/-! ### Free values of the environment -/

/-- The level the environment answers to a BUSY sample that its script does not answer (10_state.md R24; log 3). -/
opaque busyLevel : Nat → Bool

/-- The answer to a consultation of TRANSPORT_AVAILABLE that the script does not answer (10_state.md R38; log 4). -/
opaque transportLevel : Nat → Bool

/-- The byte that a read of a frame-buffer index gives when nothing has written it (20_memory.md R60; log 7). -/
opaque unwrittenByte : Nat → Byte

/-- The value of the panel's register byte number `field` after the `draw`-th event that leaves the panel's registers
unspecified (91_not_in_source.md N3; log 16). -/
opaque panelByte : (draw field : Nat) → Byte

/-- The address, in 8-pixel units, that a non-zero data byte of command 0x4E sets the cursor's X to
(91_not_in_source.md N6; log 33). -/
opaque cursorAddress : Byte → Byte

end Sys2Proof.Config
end

