-- ==== Sys2Proof/Machine/Operands.lean ====
section
/-! DEFINITION. Operand assembly (30_encoding.md R94, R95), the row arithmetic of the Frame Buffer Builder
(43_frame_buffer.md R200, R203, R205) and the place of a pixel (20_memory.md R61, R63). -/

namespace Sys2Proof

/-- The data byte of an X pixel coordinate: its address in 8-pixel units, `(x >> 3) & 0xFF` (R94). -/
def xByte (x : Coord) : Byte := (x >>> 3).setWidth 8

/-- The low byte of a 16-bit Y coordinate, the first one sent (R95). -/
def yLow (y : Coord) : Byte := y.setWidth 8

/-- The high byte of a 16-bit Y coordinate, the second one sent (R95). -/
def yHigh (y : Coord) : Byte := (y >>> 8).setWidth 8

/-- The first pixel column that an X address byte stands for. -/
def xOfByte (a : Byte) : Coord := a.setWidth 16 <<< 3

/-- The Y coordinate of two bytes, low byte first. -/
def yOfBytes (lo hi : Byte) : Coord := hi.setWidth 16 <<< 8 ||| lo.setWidth 16

/-- ROW_BYTES in the naturals: the two cases of R200. -/
def rowBytesNat (w : Nat) : Nat := if w % 8 = 0 then w / 8 else w / 8 + 1

/-- ROW_BYTES(w), held in the 14 bits of `reg.ROWB` (R200, 10_state.md R32). -/
def rowBytes (w : Coord) : BitVec 14 := BitVec.ofNat 14 (rowBytesNat w.toNat)

/-- The buffer length `ROWB * h`, held in the 29 bits of `reg.LEN` (R203, 10_state.md R32). -/
def bufferLen (rowb : BitVec 14) (h : Coord) : BitVec 29 := BitVec.ofNat 29 (rowb.toNat * h.toNat)

/-- The logical width: the height when the rotation is 90 or 270 degrees (R205). -/
def logicalW (rot : Rotation) (w h : Coord) : Coord :=
  match rot with
  | .r0 => w
  | .r90 => h
  | .r180 => w
  | .r270 => h

/-- The logical height: the width when the rotation is 90 or 270 degrees (R205). -/
def logicalH (rot : Rotation) (w h : Coord) : Coord :=
  match rot with
  | .r0 => h
  | .r90 => w
  | .r180 => h
  | .r270 => w

/-- The index in FB of the byte that holds the pixel at column `x` of row `y`, `y*ROWB + (x >> 3)` (20_memory.md R61). -/
def pixelIndex (rowb : BitVec 14) (x y : Coord) : Nat := y.toNat * rowb.toNat + x.toNat / 8

/-- The bit of its byte that holds the pixel at column `x` (20_memory.md R63): bit `7 - (x mod 8)` or bit `x mod 8`, as
PIXEL_MSB_FIRST says. -/
def pixelBit (msbFirst : Bool) (x : Coord) : Nat := if msbFirst then 7 - x.toNat % 8 else x.toNat % 8

/-- The key under which the panel's image RAM and the glass hold the byte at X address `xa` of row `y` (20_memory.md R68). -/
def panelKey (xa : Byte) (y : Coord) : Nat := y.toNat * 256 + xa.toNat

end Sys2Proof
end

