-- ==== Sys2Proof/Syntax.lean ====
section
/-! DEFINITION. The instructions: one constructor for each row of spec/opcode_table.json (30_encoding.md R90, R96, R97). -/

namespace Sys2Proof

/-- The 14 panel commands, the two codec micro-operations and the six host operations. -/
inductive Instr where
  /-- SWRESET, opcode 0x12 (41_panel_commands.md R140). -/
  | swreset
  /-- DRVOUT, opcode 0x01 (R141). -/
  | drvout
  /-- DENTRY, opcode 0x11 (R142). -/
  | dentry
  /-- RAMXWIN, opcode 0x44: first and last pixel column of the window (R143). -/
  | ramxwin (xs xe : Coord)
  /-- RAMYWIN, opcode 0x45: first and last row of the window (R144). -/
  | ramywin (ys ye : Coord)
  /-- RAMXCNT, opcode 0x4E (R145). -/
  | ramxcnt
  /-- RAMYCNT, opcode 0x4F (R146). -/
  | ramycnt
  /-- BORDER, opcode 0x3C (R147). -/
  | border
  /-- UPDCTL1, opcode 0x21 (R148). -/
  | updctl1
  /-- TEMPSEN, opcode 0x18 (R149). -/
  | tempsen
  /-- WRRAM, opcode 0x24 (R150). -/
  | wrram
  /-- UPDCTL2, opcode 0x22 (R151). -/
  | updctl2
  /-- ACTIVATE, opcode 0x20 (R152). -/
  | activate
  /-- DSLEEP, opcode 0x10 (R153). -/
  | dsleep
  /-- CMD, the command symbol (40_codec.md R120). -/
  | cmd (b : Byte)
  /-- DAT, the data symbol (R121). -/
  | dat (b : Byte)
  /-- OPEN, host operation 0, with the model identifier (44_orchestrator.md R231). -/
  | openSession (m : Byte)
  /-- INIT, host operation 1 (R232). -/
  | init
  /-- PAINT, host operation 2, with the fill byte (R233). -/
  | paint (c : Byte)
  /-- CLEAR, host operation 3 (R234). -/
  | clear
  /-- PAINT_IMAGE, host operation 4; its bytes come by the data port (R235). -/
  | paintImage
  /-- SLEEP, host operation 5 (R236). -/
  | sleep
deriving DecidableEq, Repr

/-- The three encoded forms of the opcode table. -/
inductive Format where
  /-- An opcode byte and the operand bytes of R94 and R95. -/
  | panelOpcode
  /-- A 9-bit symbol (R90). -/
  | busSymbol
  /-- An 11-bit host operation word (R93). -/
  | hostWord
deriving DecidableEq, Repr

/-- The format in which the opcode table encodes an instruction. -/
def Instr.format : Instr → Format
  | .swreset => .panelOpcode
  | .drvout => .panelOpcode
  | .dentry => .panelOpcode
  | .ramxwin _ _ => .panelOpcode
  | .ramywin _ _ => .panelOpcode
  | .ramxcnt => .panelOpcode
  | .ramycnt => .panelOpcode
  | .border => .panelOpcode
  | .updctl1 => .panelOpcode
  | .tempsen => .panelOpcode
  | .wrram => .panelOpcode
  | .updctl2 => .panelOpcode
  | .activate => .panelOpcode
  | .dsleep => .panelOpcode
  | .cmd _ => .busSymbol
  | .dat _ => .busSymbol
  | .openSession _ => .hostWord
  | .init => .hostWord
  | .paint _ => .hostWord
  | .clear => .hostWord
  | .paintImage => .hostWord
  | .sleep => .hostWord

/-- What the host presents: an operation word, and for PAINT_IMAGE the bytes on the data port in ascending buffer
index (30_encoding.md R93). -/
structure HostRequest where
  word : HostWord
  image : List Byte
deriving DecidableEq, Repr

end Sys2Proof
end

