-- ==== Sys2Proof/WellFormed.lean ====
section
/-! DEFINITION. The checks on terms: an instruction, a host request, a set of parameters. -/

namespace Sys2Proof

/-- Is the byte one of the two colours, 0x00 black or 0xFF white (30_encoding.md R99, R103). -/
def isColour (c : Byte) : Bool := c == Config.black || c == Config.white

/-- Every operand of every instruction takes every value of its width, but for the colour of PAINT (R99). -/
def Instr.wf : Instr → Bool
  | .swreset => true
  | .drvout => true
  | .dentry => true
  | .ramxwin _ _ => true
  | .ramywin _ _ => true
  | .ramxcnt => true
  | .ramycnt => true
  | .border => true
  | .updctl1 => true
  | .tempsen => true
  | .wrram => true
  | .updctl2 => true
  | .activate => true
  | .dsleep => true
  | .cmd _ => true
  | .dat _ => true
  | .openSession _ => true
  | .init => true
  | .paint c => isColour c
  | .clear => true
  | .paintImage => true
  | .sleep => true

/-- An image has exactly FB_LEN bytes and comes with PAINT_IMAGE alone (30_encoding.md R93, 44_orchestrator.md R235). -/
def HostRequest.wf (r : HostRequest) : Bool :=
  if r.word == 0x400 then r.image.length == Config.fbLen else r.image.isEmpty

/-- A finite bound on the polls is at least 1 (42_panel_state_machine.md R172). -/
def Params.wf (p : Params) : Bool :=
  match p.busyTimeoutPolls with
  | none => true
  | some n => 1 ≤ n

end Sys2Proof
end

