-- ==== Sys2Proof/Decode.lean ====
section
/-! DEFINITION. Decoding and encoding (30_encoding.md). Three formats travel by three ways: a host word on the host port, a
9-bit symbol on the bus, and an opcode byte with its operand bytes inside a command frame group. As bytes (log 12, 13): an
opcode byte is followed by the operand bytes of R94 and R95; a symbol and a host word take two bytes, low byte first. -/

namespace Sys2Proof

/-- Why a word is no instruction. -/
inductive Reject where
  /-- An opcode byte outside the table of R96 (R98). -/
  | unknownOpcode (b : Byte)
  /-- The bytes end inside an instruction. -/
  | truncated
  /-- A symbol has nine bits (R90). -/
  | symbolTooWide
  /-- A host word has eleven bits (R93). -/
  | hostWordTooWide
  /-- Operation codes 6 and 7 are reserved (R99). -/
  | reservedOperation (w : HostWord)
  /-- A non-zero operand on an operation that takes none (R99). -/
  | operandNotZero (w : HostWord)
  /-- A PAINT whose operand is no colour (R99). -/
  | reservedColour (w : HostWord)
deriving DecidableEq, Repr

/-- The answer of a decoder: an instruction and the bytes after it, or a rejection by name. -/
inductive Decoded where
  | ok (i : Instr) (rest : List Byte)
  | reject (r : Reject)
deriving DecidableEq, Repr

/-- An operation that takes no operand requires `arg = 0x00` (R93, R99). -/
def hostNoOperand (i : Instr) (w : HostWord) : Except Reject Instr :=
  if w.setWidth 8 = (0 : Byte) then .ok i else .error (.operandNotZero w)

/-- The host operation of an 11-bit word (R93, R97, R99). -/
def decodeHostWord (w : HostWord) : Except Reject Instr :=
  match (w >>> 8).toNat with
  | 0 => .ok (.openSession (w.setWidth 8))
  | 1 => hostNoOperand .init w
  | 2 => if isColour (w.setWidth 8) then .ok (.paint (w.setWidth 8)) else .error (.reservedColour w)
  | 3 => hostNoOperand .clear w
  | 4 => hostNoOperand .paintImage w
  | 5 => hostNoOperand .sleep w
  | _ => .error (.reservedOperation w)

/-- The codec micro-operation of a 9-bit symbol: bit 8 is the level of DC (R90). -/
def decodeSymbol (s : Symbol) : Instr :=
  if s.getLsbD 8 then .dat (s.setWidth 8) else .cmd (s.setWidth 8)

/-- RAMXWIN from its two X address bytes (R94, R143). -/
def decodeXWin : List Byte → Decoded
  | a :: b :: rest => .ok (.ramxwin (xOfByte a) (xOfByte b)) rest
  | _ => .reject .truncated

/-- RAMYWIN from its four bytes, low byte first (R95, R144). -/
def decodeYWin : List Byte → Decoded
  | a :: b :: c :: d :: rest => .ok (.ramywin (yOfBytes a b) (yOfBytes c d)) rest
  | _ => .reject .truncated

/-- The panel command of an opcode byte (the table of R96); `rest` are the bytes after it. -/
def decodeOpcode (op : Byte) (rest : List Byte) : Decoded :=
  match op.toNat with
  | 0x12 => .ok .swreset rest
  | 0x01 => .ok .drvout rest
  | 0x11 => .ok .dentry rest
  | 0x44 => decodeXWin rest
  | 0x45 => decodeYWin rest
  | 0x4E => .ok .ramxcnt rest
  | 0x4F => .ok .ramycnt rest
  | 0x3C => .ok .border rest
  | 0x21 => .ok .updctl1 rest
  | 0x18 => .ok .tempsen rest
  | 0x24 => .ok .wrram rest
  | 0x22 => .ok .updctl2 rest
  | 0x20 => .ok .activate rest
  | 0x10 => .ok .dsleep rest
  | _ => .reject (.unknownOpcode op)

/-- The answer of the host-word decoder as an answer about bytes. -/
def hostDecoded (rest : List Byte) : Except Reject Instr → Decoded
  | .ok i => .ok i rest
  | .error r => .reject r

/-- Decoding the bytes of one format: total, and every failure has a name. -/
def decode : Format → List Byte → Decoded
  | _, [] => .reject .truncated
  | .panelOpcode, op :: rest => decodeOpcode op rest
  | .busSymbol, [_] => .reject .truncated
  | .busSymbol, lo :: hi :: rest =>
    if hi.toNat < 2 then .ok (decodeSymbol (hi.setWidth 9 <<< 8 ||| lo.setWidth 9)) rest else .reject .symbolTooWide
  | .hostWord, [_] => .reject .truncated
  | .hostWord, lo :: hi :: rest =>
    if hi.toNat < 8 then hostDecoded rest (decodeHostWord (hi.setWidth 11 <<< 8 ||| lo.setWidth 11))
    else .reject .hostWordTooWide

/-! ### Encoding -/

/-- The bytes of an instruction in its own format, from the tables of R90, R94 to R97. -/
def encode : Instr → List Byte
  | .swreset => [0x12]
  | .drvout => [0x01]
  | .dentry => [0x11]
  | .ramxwin xs xe => [0x44, xByte xs, xByte xe]
  | .ramywin ys ye => [0x45, yLow ys, yHigh ys, yLow ye, yHigh ye]
  | .ramxcnt => [0x4E]
  | .ramycnt => [0x4F]
  | .border => [0x3C]
  | .updctl1 => [0x21]
  | .tempsen => [0x18]
  | .wrram => [0x24]
  | .updctl2 => [0x22]
  | .activate => [0x20]
  | .dsleep => [0x10]
  | .cmd b => [b, 0]
  | .dat b => [b, 1]
  | .openSession m => [m, 0]
  | .init => [0, 1]
  | .paint c => [c, 2]
  | .clear => [0, 3]
  | .paintImage => [0, 4]
  | .sleep => [0, 5]

/-- The X coordinate that survives encoding: the low three bits and the bits above bit 10 are dropped (R94). -/
def xCanon (x : Coord) : Coord := xOfByte (xByte x)

/-- What of an instruction its encoding holds: all of it, but that RAMXWIN's columns are rounded to 8-pixel units (R94). -/
def Instr.canon : Instr → Instr
  | .ramxwin xs xe => .ramxwin (xCanon xs) (xCanon xe)
  | .swreset => .swreset
  | .drvout => .drvout
  | .dentry => .dentry
  | .ramywin ys ye => .ramywin ys ye
  | .ramxcnt => .ramxcnt
  | .ramycnt => .ramycnt
  | .border => .border
  | .updctl1 => .updctl1
  | .tempsen => .tempsen
  | .wrram => .wrram
  | .updctl2 => .updctl2
  | .activate => .activate
  | .dsleep => .dsleep
  | .cmd b => .cmd b
  | .dat b => .dat b
  | .openSession m => .openSession m
  | .init => .init
  | .paint c => .paint c
  | .clear => .clear
  | .paintImage => .paintImage
  | .sleep => .sleep

/-! ### The stream on the bus -/

/-- A symbol as nine bits, DC in bit 8 (R90). -/
def Sym.bits (s : Sym) : Symbol := (if s.1 then 0x100 else 0) ||| s.2.setWidth 9

/-- The command frame groups of a stream: DC alone tells a command from data, and a group ends where the next command begins
(R92, R100). The first component is the data that precedes the first command. -/
def groupStream : List Sym → List Byte × List (Byte × List Byte)
  | [] => ([], [])
  | s :: rest =>
    match groupStream rest with
    | (d, gs) => if s.1 then (s.2 :: d, gs) else ([], (s.2, d) :: gs)

/-- The symbols of one command frame group (R92). -/
def groupSyms (g : Byte × List Byte) : List Sym := (false, g.1) :: g.2.map (fun b => (true, b))

/-! ### The words of the opcode table -/

/-- The byte of `w` that starts at bit `8*n`. -/
def byteOfNat (w n : Nat) : Byte := BitVec.ofNat 8 (w >>> (8 * n))

/-- The instruction of a decoder's answer. -/
def Decoded.instr? : Decoded → Option Instr
  | .ok i _ => some i
  | .reject _ => none

/-- The first answer that is an instruction. -/
def Decoded.orElse : Decoded → Decoded → Option Instr
  | .ok i _, _ => some i
  | .reject _, d => d.instr?

/-- The instruction of a table word (log 12). 8 bits are an opcode byte, its operand bytes zero; 9 bits a symbol; 11 bits a
host word. 16 bits are two whole bytes, which the table gives to symbols and host words alike: the host word is read first,
and a word the host port refuses is read as a symbol. -/
def decodeTableWord (nbits w : Nat) : Option Instr :=
  let two := [byteOfNat w 0, byteOfNat w 1]
  if w >>> nbits ≠ 0 then none
  else if nbits = 8 then (decode .panelOpcode [byteOfNat w 0, 0, 0, 0, 0]).instr?
  else if nbits = 9 then (decode .busSymbol two).instr?
  else if nbits = 11 then (decode .hostWord two).instr?
  else if nbits = 16 then (decode .hostWord two).orElse (decode .busSymbol two)
  else none

end Sys2Proof
end

