-- ==== Sys2Proof/Machine/State.lean ====
section
/-! DEFINITION. The state of the machine as plain data (10_state.md R20 to R40): the engine's registers, the frame buffer and
the trace; the panel's state (R37, R43); the inputs of the environment and the host (R38); and the machine after reset. -/

namespace Sys2Proof.Machine

/-- The output pins (00_scope.md R12). -/
inductive Pin where
  | dc | cs | rst
deriving DecidableEq, Repr

/-- The events of the output trace (00_scope.md R12). -/
inductive Event where
  /-- DRV(p, l): the engine drives pin `p` to level `l`, true for high. -/
  | drv (p : Pin) (l : Bool)
  /-- TX(b): one byte shifted out. -/
  | tx (b : Byte)
  /-- SMP(l): BUSY sampled at level `l`. -/
  | smp (l : Bool)
  /-- DLY(n): at least `n` milliseconds pass. -/
  | dly (n : Nat)
deriving DecidableEq, Repr

/-- `reg.PS`, the panel-state tracker (10_state.md R26). -/
inductive PanelState where
  | unpowered | resetting | awaitingIdle | configured | refreshing | sleepRequested | faulted
deriving DecidableEq, Repr

/-- `reg.SESSION` (10_state.md R27). -/
inductive Session where
  | closed | opened
deriving DecidableEq, Repr

/-- `reg.ERR` (10_state.md R28, 60_exceptions.md R260). -/
inductive ErrorCode where
  | noError | acquisitionFailure | unsupportedConfiguration | deviceUnresponsive | transportFailure
deriving DecidableEq, Repr

/-- `reg.SEQ`, the sequencer position (10_state.md R29). `running op pos k`: operation `op` runs, `k` primitives have been
executed since it started, and `pos` is the index of the next micro-step in the fixed expansion of `op` (log 8). -/
inductive Seq where
  | idle
  | running (op : Instr) (pos k : Nat)
deriving DecidableEq, Repr

/-- A memory: cells with strictly rising addresses. An address not listed holds no value (log 7). -/
abbrev Memory := List Host.Cell

/-- The registers of the panel controller, each byte under the name of the field the spec states (10_state.md R37). -/
structure PanelRegs where
  /-- DRIVER_OUTPUT, Y-max low. -/
  yMaxLow : Byte
  /-- DRIVER_OUTPUT, Y-max high. -/
  yMaxHigh : Byte
  /-- DRIVER_OUTPUT, gate-scan option. -/
  gateScan : Byte
  /-- DATA_ENTRY. -/
  dataEntry : Byte
  /-- RAM_X_WINDOW, start. -/
  xStart : Byte
  /-- RAM_X_WINDOW, end. -/
  xEnd : Byte
  /-- RAM_Y_WINDOW, start low. -/
  yStartLow : Byte
  /-- RAM_Y_WINDOW, start high. -/
  yStartHigh : Byte
  /-- RAM_Y_WINDOW, end low. -/
  yEndLow : Byte
  /-- RAM_Y_WINDOW, end high. -/
  yEndHigh : Byte
  /-- RAM_X_COUNTER, the cursor's X address. -/
  xCounter : Byte
  /-- RAM_Y_COUNTER, low. -/
  yCounterLow : Byte
  /-- RAM_Y_COUNTER, high. -/
  yCounterHigh : Byte
  /-- BORDER. -/
  border : Byte
  /-- UPDATE_CTRL_1, first byte. -/
  updCtl1A : Byte
  /-- UPDATE_CTRL_1, second byte. -/
  updCtl1B : Byte
  /-- TEMP_SENSOR_CTRL. -/
  tempSensor : Byte
  /-- UPDATE_CTRL_2, the update-sequence option byte. -/
  updCtl2 : Byte
  /-- SLEEP_CTRL. -/
  sleepCtl : Byte
deriving DecidableEq, Repr

/-- The panel as the engine's environment (10_state.md R37, R43; 20_memory.md R68 to R74; log 16 to 22). -/
structure Panel where
  regs : PanelRegs
  /-- The opcode of the command frame group being received (30_encoding.md R92). -/
  opcode : Option Byte
  /-- The data bytes of that group received so far. -/
  index : Nat
  /-- The black/white image RAM (20_memory.md R68), keyed by `panelKey`; an address not listed is unknown. -/
  ram : Memory
  /-- What the glass shows (20_memory.md R74), keyed as the RAM; an address not listed is unknown. -/
  glass : Memory
  /-- The panel may be internally busy (10_state.md R43). -/
  busy : Bool
  /-- A full refresh has been started and no low BUSY sample has been taken since (20_memory.md R74). -/
  refreshing : Bool
  /-- Nothing may be assumed of the panel: its registers are free values, the RAM unknown, and no byte changes that
  (93_implementation_defined.md U1, U2; log 19). -/
  lost : Bool
  /-- While nothing may be assumed of the panel and an INIT has pulsed its reset: what that INIT has made of the registers so
  far. They are the panel's when the INIT completes, and not before (U1; log 19). -/
  pending : Option PanelRegs
  /-- Ghost: a byte has reached the panel while it may have been busy (70_reset_and_hazards.md R303). -/
  hazard : Bool
  /-- How many times the registers have become unspecified: the counter the free register values are drawn at. -/
  draws : Nat
deriving DecidableEq, Repr

/-- The inputs of the environment (10_state.md R38): scripted answers, then free ones drawn at a counter (log 3, 4, 5). -/
structure Env where
  /-- The answers to the next BUSY samples. -/
  busy : List Bool
  /-- How many BUSY samples were answered beyond the script. -/
  busyDraws : Nat
  /-- The answers to the next consultations of TRANSPORT_AVAILABLE. -/
  transport : List Bool
  /-- How many consultations were answered beyond the script. -/
  transportDraws : Nat
  /-- The ordinals, counted from 1 over the trace, of the bytes for which TXFAIL holds. -/
  txFail : List Nat
deriving DecidableEq, Repr

/-- The state of the machine. -/
structure State where
  /-- `PIN[CS]`, true is 1, deselected (10_state.md R21). -/
  pinCS : Bool
  /-- `PIN[DC]`, false is command (R22). -/
  pinDC : Bool
  /-- `PIN[RST]` (R23). -/
  pinRST : Bool
  /-- `reg.PS` (R26). -/
  ps : PanelState
  /-- `reg.SESSION` (R27). -/
  session : Session
  /-- `reg.ERR` (R28). -/
  err : ErrorCode
  /-- `reg.ERRINFO` (R28). -/
  errInfo : Nat
  /-- `reg.SEQ` (R29). -/
  seq : Seq
  /-- `reg.SR` (R30). -/
  sr : Byte
  /-- The bit counter of `reg.SR` (R30). -/
  srBits : BitVec 3
  /-- `reg.W` (R31). -/
  w : Coord
  /-- `reg.H` (R31). -/
  h : Coord
  /-- `reg.ROT` (R31). -/
  rot : Rotation
  /-- `reg.COLOR` (R31). -/
  color : Byte
  /-- `reg.ROWB` (R32). -/
  rowb : BitVec 14
  /-- `reg.LEN` (R32). -/
  len : BitVec 29
  /-- `reg.LW` (R32). -/
  lw : Coord
  /-- `reg.LH` (R32). -/
  lh : Coord
  /-- `FB` (R33). -/
  fb : Memory
  /-- `reg.IDX` (R34). -/
  idx : BitVec 29
  /-- `reg.POLLS` (R35). -/
  polls : Nat
  /-- `T`, the output trace, oldest event first (R36). -/
  T : List Event
  /-- The panel (R37). -/
  panel : Panel
  /-- The parameters (R38), written by no step. -/
  cfg : Params
  /-- The environment's inputs (R38). -/
  env : Env
  /-- The words the host will present, in order, each when `reg.SEQ = Idle` (00_scope.md R7, 30_encoding.md R93). -/
  host : List HostRequest
  /-- The data port: the image bytes supplied with the word last presented (30_encoding.md R93). Empty at reset, the model's
  choice (log 30). -/
  port : List Byte
deriving DecidableEq, Repr

/-- What stops the machine with a fault. The spec's own errors are none of these: each is taken, as a next state
(60_exceptions.md R266). -/
inductive Fault where
  /-- Raised by the sequencer when its position lies outside the fixed expansion of the running operation, a position the
  spec does not have (10_state.md R29). No run reaches it. Safe: the machine stops. -/
  | sequencerOffProgram
deriving DecidableEq, Repr

/-- Why an instruction has no meaning (60_exceptions.md R270, 30_encoding.md R99). Each is safe: nothing can be proved
through a refused step. -/
inductive Refusal where
  /-- Raised by an arm of `exec` whose instruction has no meaning yet. -/
  | notModelled (mnemonic : String)
  /-- Raised by `step` for a host word that is reserved (R99). -/
  | reservedHostWord (r : Reject)
  /-- Raised by a host operation presented while `reg.SEQ` is Running (R99, R270). -/
  | notIdle
  /-- Raised by OPEN when the session is open (R231, R270). -/
  | sessionAlreadyOpen
  /-- Raised by PAINT, CLEAR, PAINT_IMAGE and SLEEP when `reg.PS` is not Configured (R233 to R236, R270). -/
  | panelNotConfigured
  /-- Raised by PAINT for a byte that is no colour (R99, 93_implementation_defined.md U10). -/
  | reservedColour (c : Byte)
  /-- Raised by PAINT_IMAGE when the image does not have FB_LEN bytes (R235, R270). -/
  | imageLength (n : Nat)
deriving DecidableEq, Repr

/-- Register bytes of the panel of which nothing is known: every one a free value of draw `n`
(91_not_in_source.md N3; log 16). -/
def PanelRegs.free (n : Nat) : PanelRegs where
  yMaxLow := Config.panelByte n 0
  yMaxHigh := Config.panelByte n 1
  gateScan := Config.panelByte n 2
  dataEntry := Config.panelByte n 3
  xStart := Config.panelByte n 4
  xEnd := Config.panelByte n 5
  yStartLow := Config.panelByte n 6
  yStartHigh := Config.panelByte n 7
  yEndLow := Config.panelByte n 8
  yEndHigh := Config.panelByte n 9
  xCounter := Config.panelByte n 10
  yCounterLow := Config.panelByte n 11
  yCounterHigh := Config.panelByte n 12
  border := Config.panelByte n 13
  updCtl1A := Config.panelByte n 14
  updCtl1B := Config.panelByte n 15
  tempSensor := Config.panelByte n 16
  updCtl2 := Config.panelByte n 17
  sleepCtl := Config.panelByte n 18

/-- The panel when the engine leaves reset: its state is unspecified (70_reset_and_hazards.md R300; log 16, 18). -/
def Panel.reset : Panel where
  regs := PanelRegs.free 0
  opcode := none
  index := 0
  ram := []
  glass := []
  busy := true
  refreshing := false
  lost := true
  pending := none
  hazard := false
  draws := 1

/-- The environment at reset: nothing scripted, and TXFAIL never holds (10_state.md R38). -/
def Env.reset : Env where
  busy := []
  busyDraws := 0
  transport := []
  transportDraws := 0
  txFail := []

/-- The machine right after reset (10_state.md R40, 70_reset_and_hazards.md R300). The registers the spec calls unwritten hold
zero (log 6). No word is waiting and nothing lies on the data port: the spec gives the host's inputs no value, and this is the
model's choice (log 11, 30). -/
def State.reset : State where
  pinCS := true
  pinDC := false
  pinRST := false
  ps := .unpowered
  session := .closed
  err := .noError
  errInfo := 0
  seq := .idle
  sr := 0
  srBits := 0
  w := 0
  h := 0
  rot := .r0
  color := 0
  rowb := 0
  len := 0
  lw := 0
  lh := 0
  fb := []
  idx := 0
  polls := 0
  T := []
  panel := Panel.reset
  cfg := Config.params
  env := Env.reset
  host := []
  port := []

end Sys2Proof.Machine
end

