-- ==== Sys2Proof/Machine/Panel.lean ====
section
/-! DEFINITION. The panel as the engine's environment, no stronger than the assumptions of 20_memory.md R70 to R74 (log 16 to
22). What the source leaves open of it is a free value or unknown; after a hazard nothing is assumed (`lost`) until an INIT
completes. The panel is taken to keep its power: no event of the model is a loss of it (70_reset_and_hazards.md R301; log 34). -/

namespace Sys2Proof.Machine

/-- The fourteen opcodes of 30_encoding.md R96, in its order. -/
def panelOpcodes : List Byte :=
  [0x12, 0x01, 0x11, 0x44, 0x45, 0x4E, 0x4F, 0x3C, 0x21, 0x18, 0x24, 0x22, 0x20, 0x10]

/-- The registers and the image RAM become unspecified, as by a reset (91_not_in_source.md N3). The glass keeps what it shows:
no refresh has been triggered (44_orchestrator.md R232). -/
def Panel.scramble (p : Panel) : Panel :=
  { p with regs := PanelRegs.free p.draws, ram := [], draws := p.draws + 1 }

/-- Nothing may be assumed of the panel any more, the glass included, until the next completed INIT
(93_implementation_defined.md U1, U2). -/
def Panel.lose (p : Panel) : Panel :=
  { p.scramble with glass := [], refreshing := false, lost := true, pending := none }

/-- The panel after the reset pulse of an INIT (20_memory.md R71): registers and RAM unspecified, possibly busy (R70). Where
nothing could be assumed before, nothing can until that INIT completes (U1): what it writes is pending. -/
def Panel.latchReset (p : Panel) : Panel :=
  { p.scramble with
    opcode := none
    index := 0
    busy := true
    refreshing := false
    pending := if p.lost then some (PanelRegs.free (p.draws + 1)) else none
    draws := p.draws + 2 }

/-- An INIT has completed (U1): the registers it wrote are the panel's. -/
def Panel.recovered (p : Panel) : Panel :=
  match p.pending with
  | none => p
  | some r => { p with regs := r, lost := false, pending := none }

/-- The Y of the cursor. -/
def PanelRegs.yCounter (r : PanelRegs) : Coord := yOfBytes r.yCounterLow r.yCounterHigh

/-- First row of the window. -/
def PanelRegs.yStart (r : PanelRegs) : Coord := yOfBytes r.yStartLow r.yStartHigh

/-- Last row of the window. -/
def PanelRegs.yEnd (r : PanelRegs) : Coord := yOfBytes r.yEndLow r.yEndHigh

/-- The cursor with its Y replaced. -/
def PanelRegs.withYCounter (r : PanelRegs) (y : Coord) : PanelRegs :=
  { r with yCounterLow := yLow y, yCounterHigh := yHigh y }

/-- The cursor lies in the window and in the part of the image RAM the spec knows, 16 byte columns by 250 rows
(20_memory.md R68). -/
def PanelRegs.cursorInside (r : PanelRegs) : Bool :=
  decide (r.xStart ≤ r.xCounter) && decide (r.xCounter ≤ r.xEnd)
    && decide (r.yStart ≤ r.yCounter) && decide (r.yCounter ≤ r.yEnd)
    && decide (r.xCounter.toNat < 16) && decide (r.yCounter.toNat < 250)

/-- The auto-increment, X then Y: past its end X returns to the window's start and Y increases by one
(20_memory.md R73; the wrap is 93_implementation_defined.md G3, log 17). -/
def PanelRegs.advance (r : PanelRegs) : PanelRegs :=
  if r.xCounter = r.xEnd then { r with xCounter := r.xStart }.withYCounter (r.yCounter + 1)
  else { r with xCounter := r.xCounter + 1 }

/-- The address, in 8-pixel units, that the data byte of command 0x4E sets the cursor's X to. The source sets it to 0 alone and
says of no other byte whether it is scaled as the window's is (41_panel_commands.md R145, 91_not_in_source.md N6): that address
is a free value (log 33). -/
def cursorX (b : Byte) : Byte := if b = 0 then 0 else Config.cursorAddress b

/-- A data byte of the 0x24 group: stored at the cursor, which then advances (20_memory.md R73). With another data-entry
mode than the engine selects, or outside the RAM the spec knows, nothing may be assumed (log 17). -/
def Panel.writeRam (cfg : Params) (b : Byte) (p : Panel) : Panel :=
  if p.regs.dataEntry = cfg.dataEntryMode ∧ p.regs.cursorInside = true then
    { p with ram := p.ram.write (panelKey p.regs.xCounter p.regs.yCounter) b, regs := p.regs.advance }
  else p.lose

/-- The register byte that data byte number `n` of an opcode's group writes (10_state.md R37); none where the source gives
the group no such byte. -/
def PanelRegs.store (r : PanelRegs) (b : Byte) : (op n : Nat) → Option PanelRegs
  | 0x01, 0 => some { r with yMaxLow := b }
  | 0x01, 1 => some { r with yMaxHigh := b }
  | 0x01, 2 => some { r with gateScan := b }
  | 0x11, 0 => some { r with dataEntry := b }
  | 0x44, 0 => some { r with xStart := b }
  | 0x44, 1 => some { r with xEnd := b }
  | 0x45, 0 => some { r with yStartLow := b }
  | 0x45, 1 => some { r with yStartHigh := b }
  | 0x45, 2 => some { r with yEndLow := b }
  | 0x45, 3 => some { r with yEndHigh := b }
  | 0x4E, 0 => some { r with xCounter := cursorX b }
  | 0x4F, 0 => some { r with yCounterLow := b }
  | 0x4F, 1 => some { r with yCounterHigh := b }
  | 0x3C, 0 => some { r with border := b }
  | 0x21, 0 => some { r with updCtl1A := b }
  | 0x21, 1 => some { r with updCtl1B := b }
  | 0x18, 0 => some { r with tempSensor := b }
  | 0x22, 0 => some { r with updCtl2 := b }
  | 0x10, 0 => some { r with sleepCtl := b }
  | _, _ => none

/-- After the deep-sleep byte the source gives neither what survives nor what wakes the panel (91_not_in_source.md N15;
log 21): registers and RAM unspecified, nothing may be assumed until an INIT completes. -/
def Panel.fallAsleep (b : Byte) (p : Panel) : Panel :=
  { p with regs := { PanelRegs.free p.draws with sleepCtl := b }, ram := [], draws := p.draws + 1,
           refreshing := false, lost := true, pending := none }

/-- What an opcode byte does inside the panel, as far as the source says (41_panel_commands.md R140, R152; 20_memory.md R74;
30_encoding.md R98). While a refresh runs the glass is unknown (log 20). -/
def Panel.command (op : Byte) (p : Panel) : Panel :=
  if op = 0x12 then p.scramble
  else if op = 0x20 then { p with glass := [], refreshing := p.regs.updCtl2 == Config.updateSeq }
  else if panelOpcodes.contains op then p
  else p.lose

/-- What a data byte does inside the panel (10_state.md R37, 20_memory.md R73). -/
def Panel.data (cfg : Params) (b : Byte) (p : Panel) : Panel :=
  match p.opcode with
  | none => p.lose
  | some op =>
    if op = 0x24 then p.writeRam cfg b
    else
      match p.regs.store b op.toNat p.index with
      | none => p.lose
      | some r => if op = 0x10 then p.fallAsleep b else { p with regs := r }

/-- May the panel be busy after this byte: after the software reset, the activate, the last byte of the configuration batch
(70_reset_and_hazards.md R303) and the deep-sleep byte (log 18). -/
def Panel.wakes (dc : Bool) (b : Byte) (p : Panel) : Bool :=
  if dc then p.opcode == some 0x18 || p.opcode == some 0x10 else b == 0x12 || b == 0x20

/-- What a byte does inside a panel that is known. -/
def Panel.act (cfg : Params) (dc : Bool) (b : Byte) (p : Panel) : Panel := if dc then p.data cfg b else p.command b

/-- What a byte does inside a panel of which nothing may be assumed: nothing may be assumed afterwards; and of the registers that
a running INIT has pending it makes what it would of the panel's. -/
def Panel.actLost (cfg : Params) (dc : Bool) (b : Byte) (p : Panel) : Panel :=
  match p.pending with
  | none => p.lose
  | some r =>
    let q := { p with regs := r, lost := false }.act cfg dc b
    if q.lost then q.lose
    else
      { q with
        regs := PanelRegs.free q.draws
        ram := []
        refreshing := false
        lost := true
        pending := some q.regs
        draws := q.draws + 1 }

/-- A byte reaches the panel with DC at level `dc`. A byte that reaches a panel that may be busy is the hazard of
20_memory.md R72: from it on nothing may be assumed until the next completed INIT (93_implementation_defined.md U1). Bytes,
samples, errors and the reset pulse are all that changes the panel: it keeps its power (log 34). -/
def Panel.receive (cfg : Params) (dc : Bool) (b : Byte) (p : Panel) : Panel :=
  let q := if p.busy then p.lose else if p.lost then p.actLost cfg dc b else p.act cfg dc b
  { q with
    opcode := if dc then p.opcode else some b
    index := if dc then p.index + 1 else 0
    busy := p.busy || p.wakes dc b
    hazard := p.hazard || p.busy }

/-- The transport reports that a byte was not sent (60_exceptions.md R264; log 22). -/
def Panel.missed (p : Panel) : Panel := { p.lose with busy := true }

/-- A BUSY sample tells whether the panel is busy (20_memory.md R70); a low one ends a refresh, and the glass then shows the
image RAM (R74). -/
def Panel.sampled (l : Bool) (p : Panel) : Panel :=
  if l then { p with busy := true }
  else { p with busy := false, refreshing := false, glass := if p.refreshing then p.ram else p.glass }

/-- Is the pixel at column `x` of row `y` white on the glass; none where the glass is unknown. A set bit is white
(20_memory.md R63, R74). -/
def Panel.white? (cfg : Params) (x y : Coord) (p : Panel) : Option Bool :=
  (p.glass.read? (panelKey (xByte x) y)).map (fun b => b.getLsbD (pixelBit cfg.pixelMsbFirst x))

end Sys2Proof.Machine
end

