-- ==== Sys2Proof/Machine/Ops.lean ====
section
/-! DEFINITION. The named operations: the four primitives of 00_scope.md R13, error entry and the start and end of an
operation (60_exceptions.md R266, R267; 44_orchestrator.md R230), and the frame buffer's accesses (20_memory.md R60). -/

namespace Sys2Proof.Machine

/-! ### The sequencer's count -/

/-- `n` more primitives have been executed (10_state.md R29). -/
def Seq.after (n : Nat) : Seq → Seq
  | .idle => .idle
  | .running op pos k => .running op pos (k + n)

/-- The running operation has appended at least one event (60_exceptions.md R266). -/
def Seq.emitted : Seq → Bool
  | .idle => false
  | .running _ _ k => decide (0 < k)

/-! ### Primitives (R13) -/

/-- Every primitive appends exactly one event. -/
def State.emit (e : Event) (s : State) : State :=
  { s with T := s.T ++ [e], seq := s.seq.after 1 }

/-- Write an output pin latch. -/
def State.setPin (p : Pin) (l : Bool) (s : State) : State :=
  match p with
  | .dc => { s with pinDC := l }
  | .cs => { s with pinCS := l }
  | .rst => { s with pinRST := l }

/-- `drive(p, l)`. -/
def State.drive (p : Pin) (l : Bool) (s : State) : State := (s.setPin p l).emit (.drv p l)

/-- `delay(n)`: at least `n` milliseconds pass. -/
def State.delay (n : Nat) (s : State) : State := s.emit (.dly n)

/-- Is the event a TX. -/
def Event.isTx : Event → Bool
  | .tx _ => true
  | _ => false

/-- The number of TX events in a trace. -/
def txCount (T : List Event) : Nat := T.countP Event.isTx

/-- `TXFAIL` for the next byte: its ordinal in the trace is among those at which the transport fails (10_state.md R38). -/
def State.nextTxFails (s : State) : Bool := s.env.txFail.contains (txCount s.T + 1)

/-- The effect of `tx(b)` (40_codec.md R124): the shift register is loaded and shifted out (R30; log 14), the event is
appended, and the byte reaches the panel unless the transport fails. -/
def State.tx (b : Byte) (s : State) : State :=
  { (s.emit (.tx b)) with
    sr := b
    srBits := 0
    panel := if s.nextTxFails then s.panel.missed else s.panel.receive s.cfg s.pinDC b }

/-- The answer of the environment to the next BUSY sample (10_state.md R24; log 3). -/
def Env.busyAnswer (e : Env) : Bool :=
  match e.busy with
  | [] => Config.busyLevel e.busyDraws
  | l :: _ => l

/-- The environment after that answer. -/
def Env.afterBusy (e : Env) : Env :=
  match e.busy with
  | [] => { e with busyDraws := e.busyDraws + 1 }
  | _ :: rest => { e with busy := rest }

/-- The effect of `sample_busy()`; its result is `s.env.busyAnswer`. -/
def State.sampleBusy (s : State) : State :=
  { (s.emit (.smp s.env.busyAnswer)) with
    panel := s.panel.sampled s.env.busyAnswer
    env := s.env.afterBusy }

/-- The answer of the environment to the next consultation of TRANSPORT_AVAILABLE (10_state.md R38; log 4). -/
def Env.transportAnswer (e : Env) : Bool :=
  match e.transport with
  | [] => Config.transportLevel e.transportDraws
  | l :: _ => l

/-- The environment after that answer. -/
def Env.afterTransport (e : Env) : Env :=
  match e.transport with
  | [] => { e with transportDraws := e.transportDraws + 1 }
  | _ :: rest => { e with transport := rest }

/-- The effect of consulting TRANSPORT_AVAILABLE; no event is emitted (44_orchestrator.md R231). -/
def State.consultTransport (s : State) : State := { s with env := s.env.afterTransport }

/-! ### Starting, ending and abandoning an operation -/

/-- Acceptance of a host operation (R230, R267): the error of the last one is cleared (log 9). -/
def State.accept (op : Instr) (s : State) : State :=
  { s with err := .noError, errInfo := 0, seq := .running op 0 0 }

/-- Is INIT the running operation. -/
def Seq.isInit : Seq → Bool
  | .idle => false
  | .running op _ _ => op == .init

/-- Completion (R230): the engine is idle again and the frame buffer holds no value (10_state.md R33, 43_frame_buffer.md R210;
log 7). After a completed INIT the panel is known again (93_implementation_defined.md U1). -/
def State.finish (s : State) : State :=
  { s with
    panel := if s.seq.isInit then s.panel.recovered else s.panel
    seq := .idle
    fb := [] }

/-- Error entry, `raise E(info)` (60_exceptions.md R266). The operation is over; if it has emitted an event, PS becomes
Faulted, and of the panel nothing may be assumed (93_implementation_defined.md U2). No event is appended. That the frame buffer
is emptied and the data port is kept is the model's (log 7, 29). -/
def State.raise (e : ErrorCode) (info : Nat) (s : State) : State :=
  { s with
    err := e
    errInfo := info
    ps := if s.seq.emitted then .faulted else s.ps
    panel := if s.seq.emitted then s.panel.lose else s.panel
    seq := .idle
    fb := [] }

/-! ### The frame buffer (20_memory.md R60) -/

/-- `reg.IDX <- v`. -/
def State.setIdx (v : BitVec 29) (s : State) : State := { s with idx := v }

/-- The panel is in another state. -/
def State.setPanel (p : Panel) (s : State) : State := { s with panel := p }

/-- `MemRead(i, 1)`. An index that nothing has written gives a free byte (log 7). -/
def State.memRead (i : Nat) (s : State) : Byte := (s.fb.read? i).getD (Config.unwrittenByte i)

/-- The frame buffer holds exactly these bytes, from index 0. -/
def State.memLoad (bs : List Byte) (s : State) : State := { s with fb := Memory.ofBytes 0 bs }

/-- The colour bit of the pixel at column `x` of row `y` of the frame buffer (20_memory.md R61, R63). -/
def State.pixel (x y : Coord) (s : State) : Bool :=
  (s.memRead (pixelIndex s.rowb x y)).getLsbD (pixelBit s.cfg.pixelMsbFirst x)

end Sys2Proof.Machine
end

