-- ==== Sys2Proof/Machine/Flags.lean ====
section
/-! DEFINITION. The flags and the status a host can see (10_state.md R42). The engine has no arithmetic condition code; its
status is SEQ, ERR with ERRINFO, PS and SESSION, with the numeric codes of R26 to R28. The one condition it branches on, the
poll bound, is here too. -/

namespace Sys2Proof.Machine

/-- The suggested encoding of `reg.PS` (10_state.md R26). -/
def PanelState.code : PanelState → Nat
  | .unpowered => 0
  | .resetting => 1
  | .awaitingIdle => 2
  | .configured => 3
  | .refreshing => 4
  | .sleepRequested => 5
  | .faulted => 6

/-- The encoding of `reg.SESSION` (R27). -/
def Session.code : Session → Nat
  | .closed => 0
  | .opened => 1

/-- The encoding of `reg.ERR` (R28, 60_exceptions.md R260). -/
def ErrorCode.code : ErrorCode → Nat
  | .noError => 0
  | .acquisitionFailure => 1
  | .unsupportedConfiguration => 2
  | .deviceUnresponsive => 3
  | .transportFailure => 4

/-- Is an operation running: all that the host sees of `reg.SEQ` (R29). -/
def Seq.isRunning : Seq → Bool
  | .idle => false
  | .running _ _ _ => true

/-- The host's outputs (44_orchestrator.md R230). -/
structure HostStatus where
  running : Bool
  err : Nat
  errInfo : Nat
  ps : Nat
  session : Nat
deriving DecidableEq, Repr

/-- What the host reads. -/
def State.hostStatus (s : State) : HostStatus where
  running := s.seq.isRunning
  err := s.err.code
  errInfo := s.errInfo
  ps := s.ps.code
  session := s.session.code

/-- The bound BUSY_TIMEOUT_POLLS is reached (42_panel_state_machine.md R172): never with the bound NONE. -/
def State.timedOut (s : State) : Bool :=
  match s.cfg.busyTimeoutPolls with
  | none => false
  | some n => decide (n ≤ s.polls)

/-- `reg.PS <- p`. -/
def State.setPS (p : PanelState) (s : State) : State := { s with ps := p }

end Sys2Proof.Machine
end

