-- ==== Sys2Proof/Machine/Codec.lean ====
section
/-! DEFINITION. The Command Codec (40_codec.md R120 to R124): every byte in a chip-select frame of its own. -/

namespace Sys2Proof.Machine

/-- The result of sending bytes: all sent, or error entry has been performed. -/
inductive Sent where
  | done (s : State)
  | raised (s : State)
deriving DecidableEq, Repr

/-- The state after sending, on either path. -/
def Sent.state : Sent → State
  | .done s => s
  | .raised s => s

/-- One codec call with DC at level `dc`: DC, CS low, the byte, CS high; on a failed byte the frame is closed first and
TransportFailure is raised with the number of TX events in the trace (R120, R121). -/
def State.sendByte (dc : Bool) (b : Byte) (s : State) : Sent :=
  let ready := (s.drive .dc dc).drive .cs false
  let closed := (ready.tx b).drive .cs true
  if ready.nextTxFails then .raised (closed.raise .transportFailure (txCount closed.T)) else .done closed

/-- Codec calls in order; the first error entry ends them. -/
def State.sendSyms : List Sym → State → Sent
  | [], s => .done s
  | x :: rest, s =>
    match s.sendByte x.1 x.2 with
    | .done t => t.sendSyms rest
    | .raised t => .raised t

/-- CMD(op) (R120): DC low. -/
def execCmd (op : Byte) (s : State) : Host.Outcome State Fault Refusal := .next (s.sendByte false op).state

/-- DAT(b) (R121): DC high. -/
def execDat (b : Byte) (s : State) : Host.Outcome State Fault Refusal := .next (s.sendByte true b).state

/-! ### Bit-level refinement (R123; informative, log 15) -/

/-- What happens on the two wires of the bus. -/
inductive WireEvent where
  | mosi (l : Bool)
  | sclk (l : Bool)
deriving DecidableEq, Repr

/-- One bit: data set up while the clock is low, sampled on the rising edge, then the clock falls. -/
def txBit (b : Byte) (i : Nat) : List WireEvent := [.mosi (b.getLsbD i), .sclk true, .sclk false]

/-- `tx_bits(b)`, the refinement of TX(b): bit 7 first. -/
def txBits (b : Byte) : List WireEvent := [7, 6, 5, 4, 3, 2, 1, 0].flatMap (txBit b)

/-- The levels a receiver samples: MOSI at each rising edge, starting with MOSI at level `m`. -/
def sampledBits : (m : Bool) → List WireEvent → List Bool
  | _, [] => []
  | _, .mosi l :: rest => sampledBits l rest
  | m, .sclk true :: rest => m :: sampledBits m rest
  | m, .sclk false :: rest => sampledBits m rest

end Sys2Proof.Machine
end

