-- ==== Sys2Proof/Machine/FrameBuffer.lean ====
section
/-! DEFINITION. The Frame Buffer Builder (43_frame_buffer.md): build, load, stream. -/

namespace Sys2Proof.Machine

/-- BUILD_BUFFER(w, h, rot, c) (R201): operand and result registers, then every byte the fill. No event. -/
def State.buildBuffer (w h : Coord) (rot : Rotation) (c : Byte) (s : State) : State :=
  { s with
    w := w
    h := h
    rot := rot
    color := c
    rowb := rowBytes w
    len := bufferLen (rowBytes w) h
    lw := logicalW rot w h
    lh := logicalH rot w h
    fb := Memory.ofBytes 0 (List.replicate (bufferLen (rowBytes w) h).toNat c) }

/-- The image on the data port takes the place of the fill, byte `i` at index `i`, unchanged (R209, 44_orchestrator.md R235);
the port is then empty (log 11). -/
def State.loadImage (s : State) : State :=
  { s with fb := Memory.ofBytes 0 (s.port.take s.len.toNat), port := [] }

/-- The loop of STREAM_BUFFER (R207): `n` more bytes from index `reg.IDX` on. -/
def State.stream : Nat → State → Sent
  | 0, s => .done s
  | n + 1, s =>
    match s.sendByte true (s.memRead s.idx.toNat) with
    | .done t => State.stream n (t.setIdx (t.idx + 1))
    | .raised t => .raised t

/-- STREAM_BUFFER (R207): IDX from 0 to LEN. -/
def State.streamBuffer (s : State) : Sent := State.stream s.len.toNat (s.setIdx 0)

end Sys2Proof.Machine
end

