-- ==== Sys2Proof/Machine/HostOps.lean ====
section
/-! DEFINITION. The host operations (44_orchestrator.md R231 to R236): the `require` of each (60_exceptions.md R270), its
acceptance, and what it does before its first micro-step. An accepted operation runs by the sequencer (Sequencer.lean) from
`reg.SEQ = Running(op, 0)` (R230). -/

namespace Sys2Proof.Machine

/-- `require reg.SEQ = Idle` (R230). -/
def State.requireIdle (s : State) (k : Host.Outcome State Fault Refusal) : Host.Outcome State Fault Refusal :=
  if s.seq = .idle then k else .refused .notIdle

/-- `require reg.PS = Configured` (R233, R235, R236). -/
def State.requireConfigured (s : State) (k : Host.Outcome State Fault Refusal) : Host.Outcome State Fault Refusal :=
  if s.ps = .configured then k else .refused .panelNotConfigured

/-- The body of OPEN after acceptance: the identifier is checked first, then the transport is acquired (R231, R268). -/
def State.openBody (m : Byte) (s : State) : State :=
  if m ≠ s.cfg.modelIdProfile0 then s.raise .unsupportedConfiguration m.toNat
  else if s.env.transportAnswer then { s.consultTransport with session := .opened }.finish
  else s.consultTransport.raise .acquisitionFailure 0

/-- OPEN m (R231). -/
def execOpen (m : Byte) (s : State) : Host.Outcome State Fault Refusal :=
  s.requireIdle
    (if s.session = .closed then .next ((s.accept (.openSession m)).openBody m) else .refused .sessionAlreadyOpen)

/-- The start of INIT: without a session it fails before any event (R232, R261). -/
def State.initBody (s : State) : State :=
  if s.session = .closed then s.raise .acquisitionFailure 0 else s

/-- INIT (R232). -/
def execInit (s : State) : Host.Outcome State Fault Refusal :=
  s.requireIdle (.next (s.accept .init).initBody)

/-- PAINT c (R233); a byte that is no colour is reserved (30_encoding.md R99). -/
def execPaint (c : Byte) (s : State) : Host.Outcome State Fault Refusal :=
  s.requireIdle (s.requireConfigured
    (if isColour c then .next (s.accept (.paint c)) else .refused (.reservedColour c)))

/-- CLEAR (R234). -/
def execClear (s : State) : Host.Outcome State Fault Refusal :=
  s.requireIdle (s.requireConfigured (.next (s.accept .clear)))

/-- PAINT_IMAGE (R235): the image on the data port has exactly FB_LEN bytes. -/
def execPaintImage (s : State) : Host.Outcome State Fault Refusal :=
  s.requireIdle (s.requireConfigured
    (if s.port.length = Config.fbLen then .next (s.accept .paintImage) else .refused (.imageLength s.port.length)))

/-- SLEEP (R236). -/
def execSleep (s : State) : Host.Outcome State Fault Refusal :=
  s.requireIdle (s.requireConfigured (.next (s.accept .sleep)))

end Sys2Proof.Machine
end

