-- ==== Sys2Proof/Machine/PanelCommands.lean ====
section
/-! DEFINITION. The panel commands (41_panel_commands.md R140 to R153): each sends its command frame group, exactly as the
rule writes it (R154). -/

namespace Sys2Proof.Machine

/-- A command frame group: the opcode as a command, the bytes as data (30_encoding.md R92). -/
def State.sendGroup (op : Byte) (data : List Byte) (s : State) : Sent := s.sendSyms (groupSyms (op, data))

/-- SWRESET (R140). -/
def execSwreset (s : State) : Host.Outcome State Fault Refusal := .next (s.sendGroup 0x12 []).state

/-- DRVOUT (R141): Y-max = 249 low byte first, and the gate-scan option. -/
def execDrvout (s : State) : Host.Outcome State Fault Refusal :=
  .next (s.sendGroup 0x01 [0xF9, 0x00, s.cfg.gateScan]).state

/-- DENTRY (R142). -/
def execDentry (s : State) : Host.Outcome State Fault Refusal := .next (s.sendGroup 0x11 [s.cfg.dataEntryMode]).state

/-- RAMXWIN(xs, xe) (R143): start first, in 8-pixel units. -/
def execRamxwin (xs xe : Coord) (s : State) : Host.Outcome State Fault Refusal :=
  .next (s.sendGroup 0x44 [xByte xs, xByte xe]).state

/-- RAMYWIN(ys, ye) (R144): start before end, each low byte first. -/
def execRamywin (ys ye : Coord) (s : State) : Host.Outcome State Fault Refusal :=
  .next (s.sendGroup 0x45 [yLow ys, yHigh ys, yLow ye, yHigh ye]).state

/-- RAMXCNT (R145): the cursor's X is 0. -/
def execRamxcnt (s : State) : Host.Outcome State Fault Refusal := .next (s.sendGroup 0x4E [0x00]).state

/-- RAMYCNT (R146): the cursor's Y is 0. -/
def execRamycnt (s : State) : Host.Outcome State Fault Refusal := .next (s.sendGroup 0x4F [0x00, 0x00]).state

/-- BORDER (R147). -/
def execBorder (s : State) : Host.Outcome State Fault Refusal := .next (s.sendGroup 0x3C [s.cfg.borderWaveform]).state

/-- UPDCTL1 (R148). -/
def execUpdctl1 (s : State) : Host.Outcome State Fault Refusal :=
  .next (s.sendGroup 0x21 [s.cfg.updateCtrlA, s.cfg.updateCtrlB]).state

/-- TEMPSEN (R149). -/
def execTempsen (s : State) : Host.Outcome State Fault Refusal := .next (s.sendGroup 0x18 [s.cfg.tempSensor]).state

/-- WRRAM (R150): the opcode once, then the buffer. -/
def execWrram (s : State) : Host.Outcome State Fault Refusal :=
  match s.sendByte false 0x24 with
  | .done t => .next t.streamBuffer.state
  | .raised t => .next t

/-- UPDCTL2 (R151): 0xF7. -/
def execUpdctl2 (s : State) : Host.Outcome State Fault Refusal := .next (s.sendGroup 0x22 [Config.updateSeq]).state

/-- ACTIVATE (R152). -/
def execActivate (s : State) : Host.Outcome State Fault Refusal := .next (s.sendGroup 0x20 []).state

/-- DSLEEP (R153). -/
def execDsleep (s : State) : Host.Outcome State Fault Refusal := .next (s.sendGroup 0x10 [s.cfg.sleepMode]).state

end Sys2Proof.Machine
end

