-- ==== Sys2Proof/Machine/Dispatch.lean ====
section
/-! DEFINITION. One arm for each instruction. -/

namespace Sys2Proof.Machine

def exec (i : Instr) (s : State) : Host.Outcome State Fault Refusal :=
  match i with
  | .swreset => Sys2Proof.Machine.execSwreset s
  | .drvout => Sys2Proof.Machine.execDrvout s
  | .dentry => Sys2Proof.Machine.execDentry s
  | .ramxwin xs xe => Sys2Proof.Machine.execRamxwin xs xe s
  | .ramywin ys ye => Sys2Proof.Machine.execRamywin ys ye s
  | .ramxcnt => Sys2Proof.Machine.execRamxcnt s
  | .ramycnt => Sys2Proof.Machine.execRamycnt s
  | .border => Sys2Proof.Machine.execBorder s
  | .updctl1 => Sys2Proof.Machine.execUpdctl1 s
  | .tempsen => Sys2Proof.Machine.execTempsen s
  | .wrram => Sys2Proof.Machine.execWrram s
  | .updctl2 => Sys2Proof.Machine.execUpdctl2 s
  | .activate => Sys2Proof.Machine.execActivate s
  | .dsleep => Sys2Proof.Machine.execDsleep s
  | .cmd b => Sys2Proof.Machine.execCmd b s
  | .dat b => Sys2Proof.Machine.execDat b s
  | .openSession m => Sys2Proof.Machine.execOpen m s
  | .init => Sys2Proof.Machine.execInit s
  | .paint c => Sys2Proof.Machine.execPaint c s
  | .clear => Sys2Proof.Machine.execClear s
  | .paintImage => Sys2Proof.Machine.execPaintImage s
  | .sleep => Sys2Proof.Machine.execSleep s

end Sys2Proof.Machine
end

