-- ==== Sys2Proof/Machine/Sequencer.lean ====
section
/-! DEFINITION. The sequencer: the fixed expansion of each host operation (42_panel_state_machine.md R171 to R177,
44_orchestrator.md R231 to R236, 30_encoding.md R102), the execution of one micro-step of it, and the acceptance of a host
word. The expansions are hard-wired: nothing can write them (10_state.md R29, 20_memory.md R78). -/

namespace Sys2Proof.Machine

/-- One micro-step of an expansion. -/
inductive Micro where
  /-- RESET_PULSE (R171). -/
  | resetPulse
  /-- The entry of WAIT_IDLE: `reg.PS <- AwaitingIdle; reg.POLLS <- 0` (R172). -/
  | startWait
  /-- One turn of WAIT_IDLE's loop (R172). -/
  | poll
  /-- `reg.PS <- p`. -/
  | enter (p : PanelState)
  /-- BUILD_BUFFER(PANEL_W, PANEL_H, ROT, c) (43_frame_buffer.md R201). -/
  | build (c : Byte)
  /-- The buffer is loaded from the data port (44_orchestrator.md R235). -/
  | loadImage
  /-- RAMXWIN(0, reg.W - 1), the X part of a paint's SET_WINDOW (44_orchestrator.md R233). -/
  | paintXWin
  /-- RAMYWIN(0, reg.H - 1), its Y part. -/
  | paintYWin
  /-- A codec micro-operation or a panel command. -/
  | instr (i : Instr)
deriving DecidableEq, Repr

/-! ### The expansions -/

/-- WAIT_IDLE (R172). -/
def waitIdle : List Micro := [.startWait, .poll]

/-- SET_WINDOW(xs, ys, xe, ye) (R174): X before Y. -/
def setWindow (xs ys xe ye : Coord) : List Micro := [.instr (.ramxwin xs xe), .instr (.ramywin ys ye)]

/-- SET_CURSOR (R175). -/
def setCursor : List Micro := [.instr .ramxcnt, .instr .ramycnt]

/-- CONFIGURE (R173). -/
def configure : List Micro :=
  [.enter .configured, .instr .swreset] ++ waitIdle ++
  [.enter .configured, .instr .drvout, .instr .dentry] ++
  setWindow 0 0 (Config.panelW - 1) (Config.panelH - 1) ++ setCursor ++
  [.instr .border, .instr .updctl1, .instr .tempsen] ++ waitIdle ++ [.enter .configured]

/-- TURN_ON_DISPLAY (R176). -/
def turnOnDisplay : List Micro :=
  [.enter .refreshing, .instr .updctl2, .instr .activate] ++ waitIdle ++ [.enter .configured]

/-- SLEEP_SEQ (R177). -/
def sleepSeq : List Micro := [.instr .dsleep, .enter .sleepRequested]

/-- What every paint does once the buffer is made (R233, R235): window, cursor, RAM write, refresh. -/
def showBuffer : List Micro :=
  [.paintXWin, .paintYWin] ++ setCursor ++ [.instr .wrram] ++ turnOnDisplay

/-- PAINT c (R233). -/
def paintProgram (c : Byte) : List Micro := .build c :: showBuffer

/-- The fixed expansion of an operation. A micro-operation stands for itself (log 32); OPEN is over when it has been accepted. -/
def program : Instr → List Micro
  | .openSession _ => []
  | .init => [.resetPulse] ++ waitIdle ++ configure
  | .paint c => paintProgram c
  | .clear => paintProgram Config.white
  | .paintImage => [.build Config.white, .loadImage] ++ showBuffer
  | .sleep => sleepSeq
  | .swreset => [.instr .swreset]
  | .drvout => [.instr .drvout]
  | .dentry => [.instr .dentry]
  | .ramxwin xs xe => [.instr (.ramxwin xs xe)]
  | .ramywin ys ye => [.instr (.ramywin ys ye)]
  | .ramxcnt => [.instr .ramxcnt]
  | .ramycnt => [.instr .ramycnt]
  | .border => [.instr .border]
  | .updctl1 => [.instr .updctl1]
  | .tempsen => [.instr .tempsen]
  | .wrram => [.instr .wrram]
  | .updctl2 => [.instr .updctl2]
  | .activate => [.instr .activate]
  | .dsleep => [.instr .dsleep]
  | .cmd b => [.instr (.cmd b)]
  | .dat b => [.instr (.dat b)]

/-! ### Executing a micro-step -/

/-- The micro-step is over: the next one, or completion of the operation (R230). After error entry the engine is idle and stays
so. -/
def State.advance (s : State) : State :=
  match s.seq with
  | .idle => s
  | .running op pos k =>
    if pos + 1 < (program op).length then { s with seq := .running op (pos + 1) k } else s.finish

/-- RESET_PULSE (R171): three drives of RST, a hold after each; the panel latches the reset (20_memory.md R71). -/
def State.resetPulse (s : State) : State :=
  let t := ((((((s.setPS .resetting).drive .rst true).delay Config.tRstHigh1).drive .rst false).delay Config.tRstLow).drive
    .rst true).delay Config.tRstHigh2
  t.setPanel t.panel.latchReset

/-- The entry of WAIT_IDLE (R172). -/
def State.startWait (s : State) : State := { s with ps := .awaitingIdle, polls := 0 }

/-- A sample of BUSY, counted (R172). -/
def State.pollOnce (s : State) : State := { s.sampleBusy with polls := s.polls + 1 }

/-- One turn of WAIT_IDLE's loop (R172): a low sample ends the wait; a high one raises DeviceUnresponsive at the bound, else
delays 10 ms and polls again. -/
def State.poll (s : State) : State :=
  if s.env.busyAnswer = false then s.pollOnce.advance
  else if s.pollOnce.timedOut then s.pollOnce.raise .deviceUnresponsive s.pollOnce.polls
  else s.pollOnce.delay Config.tPoll

/-- The sequencer moves on after an instruction's next state. -/
def continueWith : Host.Outcome State Fault Refusal → Host.Outcome State Fault Refusal
  | .next t => .next t.advance
  | .fault r => .fault r
  | .refused r => .refused r

/-- One micro-step of the running operation. -/
def runMicro (m : Micro) (s : State) : Host.Outcome State Fault Refusal :=
  match m with
  | .resetPulse => .next s.resetPulse.advance
  | .startWait => .next s.startWait.advance
  | .poll => .next s.poll
  | .enter p => .next (s.setPS p).advance
  | .build c => .next (s.buildBuffer Config.panelW Config.panelH s.cfg.rot c).advance
  | .loadImage => .next s.loadImage.advance
  | .paintXWin => continueWith (exec (.ramxwin 0 (s.w - 1)) s)
  | .paintYWin => continueWith (exec (.ramywin 0 (s.h - 1)) s)
  | .instr i => continueWith (exec i s)

/-- The step of a running operation: its micro-step at position `pos`. -/
def sequencerStep (op : Instr) (pos : Nat) (s : State) : Host.Outcome State Fault Refusal :=
  match (program op)[pos]? with
  | none => .fault .sequencerOffProgram
  | some m => runMicro m s

/-- The host has presented a request: its image bytes are on the data port (30_encoding.md R93). -/
def State.present (r : HostRequest) (rest : List HostRequest) (s : State) : State :=
  { s with host := rest, port := r.image }

/-- The step of an idle engine: nothing until the host presents a word (R300; log 10), then the operation of that word. -/
def hostStep (s : State) : Host.Outcome State Fault Refusal :=
  match s.host with
  | [] => .next s
  | r :: rest =>
    match decodeHostWord r.word with
    | .error e => .refused (.reservedHostWord e)
    | .ok i => exec i (s.present r rest)

/-! ### Placing an instruction where the next step fetches (log 11, 12) -/

/-- The host word of a host operation. -/
def hostWordOf (i : Instr) : Option HostWord :=
  match i.format with
  | .hostWord => some (BitVec.ofNat 11 (((encode i).getD 1 0).toNat * 256 + ((encode i).getD 0 0).toNat))
  | .busSymbol => none
  | .panelOpcode => none

/-- `s` about to run `i`: a host operation is presented on the host port, a micro-operation is where the sequencer stands. -/
def State.aboutToRun (i : Instr) (s : State) : State :=
  match hostWordOf i with
  | some w => { s with seq := .idle, host := { word := w, image := s.port } :: s.host }
  | none => { s with seq := .running i 0 0 }

end Sys2Proof.Machine
end

