-- ==== Sys2Proof/Machine/Step.lean ====
section
/-! DEFINITION. One step of the engine (10_state.md R29): an idle engine looks at the host port, a running operation executes
its next micro-step. -/

namespace Sys2Proof.Machine

def step (s : State) : Host.Outcome State Fault Refusal :=
  match s.seq with
  | .idle => hostStep s
  | .running op pos _ => sequencerStep op pos s

/-- `s` with the instruction of a table word where the next step fetches it (log 11, 12): a host word on the host port with the
engine idle, a micro-operation as the running one. A word that is no instruction changes nothing. -/
def State.withFetchWord (s : State) (nbits w : Nat) : State :=
  match decodeTableWord nbits w with
  | none => s
  | some i => s.aboutToRun i

end Sys2Proof.Machine
end

