-- ==== Sys2Proof/Safety.lean ====
section
/-! DEFINITION. The terms the claims are stated in: traces and streams (00_scope.md R12, R14), the framing of the bus
(40_codec.md R122), the legal transitions of PS (42_panel_state_machine.md R170), the state after bytes are sent, and the
invariants of the machine. Nothing of the machine is computed by these. -/

namespace Sys2Proof.Machine

/-! ### Traces and streams -/

/-- The four events of one frame (30_encoding.md R91). -/
def frame (x : Sym) : List Event := [.drv .dc x.1, .drv .cs false, .tx x.2, .drv .cs true]

/-- The events of a stream of symbols. -/
def frames (xs : List Sym) : List Event := xs.flatMap frame

/-- The byte stream of a trace, with DC at level `dc` before it: each TX byte tagged with DC (00_scope.md R14). -/
def byteStreamFrom : (dc : Bool) → List Event → List Sym
  | _, [] => []
  | dc, .tx b :: rest => (dc, b) :: byteStreamFrom dc rest
  | _, .drv .dc l :: rest => byteStreamFrom l rest
  | dc, .drv .cs _ :: rest => byteStreamFrom dc rest
  | dc, .drv .rst _ :: rest => byteStreamFrom dc rest
  | dc, .smp _ :: rest => byteStreamFrom dc rest
  | dc, .dly _ :: rest => byteStreamFrom dc rest

/-- A trace with its SMP and DLY events removed (44_orchestrator.md R237). -/
def withoutPolls (T : List Event) : List Event :=
  T.filter fun e =>
    match e with
    | .drv _ _ => true
    | .tx _ => true
    | .smp _ => false
    | .dly _ => false

/-- The events of a wait with `m` high samples before the low one (42_panel_state_machine.md R172). -/
def waitTrace (m : Nat) : List Event := (List.replicate m [Event.smp true, Event.dly 10]).flatten ++ [.smp false]

/-- The answers of such a wait. -/
def waitAnswers (m : Nat) : List Bool := List.replicate m true ++ [false]

/-- The events of the reset pulse (R171). -/
def resetTrace : List Event := [.drv .rst true, .dly 20, .drv .rst false, .dly 2, .drv .rst true, .dly 20]

/-- The first `n` answers the environment gives to BUSY samples, whatever their source (10_state.md R24; log 3). -/
def Env.busyAnswers : Nat → Env → List Bool
  | 0, _ => []
  | n + 1, e => e.busyAnswer :: e.afterBusy.busyAnswers n

/-- The environment after `n` samples. -/
def Env.afterSamples : Nat → Env → Env
  | 0, e => e
  | n + 1, e => e.afterBusy.afterSamples n

/-- The symbols of SET_WINDOW and SET_CURSOR as the engine always sends them (R174, R175). -/
def windowSyms : List Sym :=
  [(false, 0x44), (true, 0x00), (true, 0x0F), (false, 0x45), (true, 0x00), (true, 0x00), (true, 0xF9), (true, 0x00),
   (false, 0x4E), (true, 0x00), (false, 0x4F), (true, 0x00), (true, 0x00)]

/-- The symbols of CONFIGURE after the wait that follows the software reset (R173). -/
def configSyms (p : Params) : List Sym :=
  [(false, 0x01), (true, 0xF9), (true, 0x00), (true, p.gateScan), (false, 0x11), (true, p.dataEntryMode)] ++ windowSyms ++
  [(false, 0x3C), (true, p.borderWaveform), (false, 0x21), (true, p.updateCtrlA), (true, p.updateCtrlB),
   (false, 0x18), (true, p.tempSensor)]

/-- The symbols of a paint of the bytes `data` (44_orchestrator.md R233, R235). -/
def paintSyms (data : List Byte) : List Sym :=
  windowSyms ++ (false, 0x24) :: data.map (fun b => (true, b)) ++ [(false, 0x22), (true, 0xF7), (false, 0x20)]

/-- At least so many nanoseconds pass in a trace: n ms a delay, 8 bits of 250 ns a byte (70_reset_and_hazards.md R315, R316;
informative, log 26). -/
def minNanos (T : List Event) : Nat :=
  (T.map fun e =>
    match e with
    | .drv _ _ => 0
    | .tx _ => Config.spiBits * (1000000000 / Config.fSclk)
    | .smp _ => 0
    | .dly n => n * 1000000).sum

/-! ### Framing of the bus (40_codec.md R122, 70_reset_and_hazards.md R309) -/

/-- The bus as a watcher of the trace knows it: CS, DC once driven, and whether a byte has been sent in the open frame. -/
structure BusView where
  cs : Bool
  dc : Option Bool
  sent : Bool
deriving DecidableEq, Repr

/-- One event seen; none where it breaks the framing: DC moves, a sample, a delay or a RST drive only outside a frame, exactly
one byte in each frame, and DC driven before the first. -/
def BusView.see (v : BusView) : Event → Option BusView
  | .drv .dc l => if v.cs then some { v with dc := some l } else none
  | .drv .cs false => if v.cs then some { v with cs := false, sent := false } else none
  | .drv .cs true => if !v.cs && v.sent then some { v with cs := true } else none
  | .drv .rst _ => if v.cs then some v else none
  | .tx _ => if !v.cs && !v.sent && v.dc.isSome then some { v with sent := true } else none
  | .smp _ => if v.cs then some v else none
  | .dly _ => if v.cs then some v else none

/-- The bus after a trace. -/
def BusView.after : BusView → List Event → Option BusView
  | v, [] => some v
  | v, e :: rest => (v.see e).bind fun u => u.after rest

/-- The bus before the first event: deselected, DC unwritten (10_state.md R21, R22). -/
def BusView.start : BusView where
  cs := true
  dc := none
  sent := false

/-- The trace is well framed, it ends outside a frame, and the pin latches stand as the trace left them. -/
def State.Framed (s : State) : Prop :=
  ∃ v, BusView.start.after s.T = some v ∧ v.cs = true ∧ s.pinCS = true ∧ ∀ l, v.dc = some l → s.pinDC = l

/-! ### The state after bytes are sent -/

/-- Every one of the next `n` bytes is sent: TXFAIL holds for none of them (10_state.md R38). -/
def State.TransportOk (s : State) (n : Nat) : Prop := ∀ j, j < n → txCount s.T + 1 + j ∉ s.env.txFail

/-- What the panel has become when symbols have reached it. -/
def receiveAll (cfg : Params) (xs : List Sym) (p : Panel) : Panel := xs.foldl (fun q x => q.receive cfg x.1 x.2) p

/-- The state after symbols have been sent, each in its own frame: the trace, the count of primitives, the bus pins, the shift
register and the panel change, and nothing else (40_codec.md R120, R121). -/
def State.afterSyms (s : State) (xs : List Sym) : State :=
  match xs.getLast? with
  | none => s
  | some x =>
    { s with
      pinCS := true
      pinDC := x.1
      sr := x.2
      srBits := 0
      T := s.T ++ frames xs
      seq := s.seq.after (4 * xs.length)
      panel := receiveAll s.cfg xs s.panel }

/-- `t` is `s` after symbols have been sent, as far as the spec says it: trace, count of primitives and bus pins, and nothing else
of the engine. The shift register (log 14) and the record of the panel (log 16 to 22) are left open. -/
def State.SentFrom (s : State) (xs : List Sym) (t : State) : Prop :=
  ∃ sr n panel, t = { s.afterSyms xs with sr := sr, srBits := n, panel := panel }

/-- The state after a byte that the transport fails to send: its frame is closed and error entry performed
(40_codec.md R120, 60_exceptions.md R264, R266). With no operation running PS stays (log 24). -/
def State.afterFailedByte (dc : Bool) (b : Byte) (s : State) : State :=
  { s with
    pinCS := true
    pinDC := dc
    sr := b
    srBits := 0
    T := s.T ++ frame (dc, b)
    err := .transportFailure
    errInfo := txCount s.T + 1
    ps := if s.seq = .idle then s.ps else .faulted
    panel := if s.seq = .idle then s.panel.missed else s.panel.missed.lose
    seq := .idle
    fb := [] }

/-- The bytes of the frame buffer in ascending index, the data of WRRAM (41_panel_commands.md R150). -/
def State.bufferBytes (s : State) : List Byte := (List.range s.len.toNat).map fun i => s.memRead i

/-- What a panel command sends: its command frame group (30_encoding.md R96); none for any other instruction. -/
def State.groupOf (s : State) : Instr → Option (List Sym)
  | .swreset => some [(false, 0x12)]
  | .drvout => some [(false, 0x01), (true, 0xF9), (true, 0x00), (true, s.cfg.gateScan)]
  | .dentry => some [(false, 0x11), (true, s.cfg.dataEntryMode)]
  | .ramxwin xs xe => some [(false, 0x44), (true, BitVec.ofNat 8 (xs.toNat / 8)), (true, BitVec.ofNat 8 (xe.toNat / 8))]
  | .ramywin ys ye =>
    some [(false, 0x45), (true, BitVec.ofNat 8 ys.toNat), (true, BitVec.ofNat 8 (ys.toNat / 256)),
      (true, BitVec.ofNat 8 ye.toNat), (true, BitVec.ofNat 8 (ye.toNat / 256))]
  | .ramxcnt => some [(false, 0x4E), (true, 0x00)]
  | .ramycnt => some [(false, 0x4F), (true, 0x00), (true, 0x00)]
  | .border => some [(false, 0x3C), (true, s.cfg.borderWaveform)]
  | .updctl1 => some [(false, 0x21), (true, s.cfg.updateCtrlA), (true, s.cfg.updateCtrlB)]
  | .tempsen => some [(false, 0x18), (true, s.cfg.tempSensor)]
  | .wrram => some ((false, 0x24) :: s.bufferBytes.map fun b => (true, b))
  | .updctl2 => some [(false, 0x22), (true, 0xF7)]
  | .activate => some [(false, 0x20)]
  | .dsleep => some [(false, 0x10), (true, s.cfg.sleepMode)]
  | .cmd _ => none
  | .dat _ => none
  | .openSession _ => none
  | .init => none
  | .paint _ => none
  | .clear => none
  | .paintImage => none
  | .sleep => none

/-! ### PS (42_panel_state_machine.md R170) -/

/-- The values of PS while no operation runs (10_state.md R26). -/
def PanelState.resting : PanelState → Bool
  | .unpowered => true
  | .resetting => false
  | .awaitingIdle => false
  | .configured => true
  | .refreshing => false
  | .sleepRequested => true
  | .faulted => true

/-- The transition relation of R170, with staying where one is. -/
def PanelState.legal (a b : PanelState) : Bool :=
  a == b || b == .resetting || b == .faulted
    || (a == .resetting && b == .awaitingIdle)
    || (a == .awaitingIdle && b == .configured)
    || (a == .configured && b == .awaitingIdle)
    || (a == .configured && b == .refreshing)
    || (a == .refreshing && b == .awaitingIdle)
    || (a == .configured && b == .sleepRequested)

/-! ### The sequencer's invariant (10_state.md R26, R29; 70_reset_and_hazards.md R303, R305) -/

/-- The operations that run for more than one step. -/
def spansSteps : Instr → Bool
  | .init => true
  | .paint c => isColour c
  | .clear => true
  | .paintImage => true
  | .sleep => true
  | .openSession _ => false
  | .swreset => false
  | .drvout => false
  | .dentry => false
  | .ramxwin _ _ => false
  | .ramywin _ _ => false
  | .ramxcnt => false
  | .ramycnt => false
  | .border => false
  | .updctl1 => false
  | .tempsen => false
  | .wrram => false
  | .updctl2 => false
  | .activate => false
  | .dsleep => false
  | .cmd _ => false
  | .dat _ => false

/-- May the panel be busy after this instruction of an expansion, it being idle before (R303). -/
def leavesBusy : Instr → Bool
  | .swreset => true
  | .tempsen => true
  | .activate => true
  | .dsleep => true
  | .drvout => false
  | .dentry => false
  | .ramxwin _ _ => false
  | .ramywin _ _ => false
  | .ramxcnt => false
  | .ramycnt => false
  | .border => false
  | .updctl1 => false
  | .wrram => false
  | .updctl2 => false
  | .cmd _ => false
  | .dat _ => false
  | .openSession _ => false
  | .init => false
  | .paint _ => false
  | .clear => false
  | .paintImage => false
  | .sleep => false

/-- The rest of an expansion is in order from a panel that may be busy and a value of PS: no byte is sent to a panel that may
be busy, every change of PS is a transition of R170, and the operation ends with PS at rest and, if that is Configured, with
an idle panel. -/
def inOrder : (busy : Bool) → (ps : PanelState) → List Micro → Bool
  | busy, ps, [] => ps.resting && !(busy && ps == .configured)
  | _, _, .resetPulse :: rest => inOrder true .resetting rest
  | busy, ps, .startWait :: rest => ps.legal .awaitingIdle && inOrder busy .awaitingIdle rest
  | _, ps, .poll :: rest => ps == .awaitingIdle && inOrder false ps rest
  | busy, ps, .enter p :: rest => ps.legal p && inOrder busy p rest
  | busy, ps, .build _ :: rest => inOrder busy ps rest
  | busy, ps, .loadImage :: rest => inOrder busy ps rest
  | busy, ps, .paintXWin :: rest => !busy && inOrder busy ps rest
  | busy, ps, .paintYWin :: rest => !busy && inOrder busy ps rest
  | busy, ps, .instr i :: rest =>
    !busy && i.format == .panelOpcode && inOrder (leavesBusy i) ps rest

/-- The value of PS after micro-steps, no error having struck. -/
def psAfter : PanelState → List Micro → PanelState
  | p, [] => p
  | _, .resetPulse :: rest => psAfter .resetting rest
  | _, .startWait :: rest => psAfter .awaitingIdle rest
  | _, .enter q :: rest => psAfter q rest
  | p, .poll :: rest => psAfter p rest
  | p, .build _ :: rest => psAfter p rest
  | p, .loadImage :: rest => psAfter p rest
  | p, .paintXWin :: rest => psAfter p rest
  | p, .paintYWin :: rest => psAfter p rest
  | p, .instr _ :: rest => psAfter p rest

/-- The sequencer stands in the expansion of a host operation, with PS as the micro-steps behind it leave it (INIT starts from
any), or idle with PS at rest; and a session is open whenever an operation runs or PS is not Unpowered (44_orchestrator.md R231,
R232). -/
def State.SequencingInv (s : State) : Prop :=
  s.panel.hazard = false ∧
  (s.ps ≠ .unpowered → s.session = .opened) ∧
  match s.seq with
  | .idle => inOrder s.panel.busy s.ps [] = true
  | .running op pos _ =>
    spansSteps op = true ∧ s.session = .opened ∧ pos < (program op).length ∧
      (op = .init ∧ pos = 0 ∨ s.ps = psAfter .configured ((program op).take pos)) ∧
      inOrder s.panel.busy s.ps ((program op).drop pos) = true

/-- The micro-step at which the sequencer stands. -/
def State.micro? (s : State) : Option Micro :=
  match s.seq with
  | .idle => none
  | .running op pos _ => (program op)[pos]?

/-- While a paint runs, past its first micro-step: the builder's registers are those of the whole panel and every byte of the
buffer has been written; and an image still to be loaded has the buffer's length (43_frame_buffer.md R203, R210). -/
def State.BufferInv (s : State) : Prop :=
  ∀ op pos k c, s.seq = .running op pos k → (program op).head? = some (.build c) →
    (0 < pos → s.w = 122 ∧ s.h = 250 ∧ s.rowb = 16 ∧ s.len = 4000 ∧ ∀ i, i < 4000 → (s.fb.read? i).isSome = true) ∧
    (op = .paintImage → pos ≤ 1 → s.port.length = 4000)

/-- The frame buffer holds no value while no operation runs (10_state.md R33, 43_frame_buffer.md R210; that the model keeps it
empty then is log 7 and 29). -/
def State.NoIdleBuffer (s : State) : Prop := s.seq = .idle → s.fb = []

/-- While nothing may be assumed of the panel its image RAM is unknown and no refresh can make the glass known; and what a running
INIT has made of its registers is pending only then (93_implementation_defined.md U1; log 19). -/
def State.LostInv (s : State) : Prop :=
  (s.panel.lost = true → s.panel.ram = [] ∧ s.panel.refreshing = false) ∧ (s.panel.pending.isSome = true → s.panel.lost = true)

/-- Every memory of the machine is in its canonical form (log 7). -/
def State.MemoriesCanonical (s : State) : Prop :=
  Memory.wf s.fb = true ∧ Memory.wf s.panel.ram = true ∧ Memory.wf s.panel.glass = true

/-! ### Runs -/

/-- `n` steps, ended by the first fault or refusal. -/
def runFor : Nat → State → Host.Outcome State Fault Refusal
  | 0, s => .next s
  | n + 1, s =>
    match step s with
    | .next t => runFor n t
    | .fault r => .fault r
    | .refused r => .refused r

end Sys2Proof.Machine
end

