-- ==== Sys2Proof/Certificates/Slice0/Obligations.lean ====
section
/-! DEFINITION. The statements for the provers, in the order of OBLIGATIONS.json. "The panel" in them is the model's record of
what the engine may assume of it (20_memory.md R70 to R74; log 16 to 22). -/

open Sys2Proof Sys2Proof.Machine

/-! ### Encoding -/

/-- Decoding the encoding of a well-formed instruction, whatever bytes follow it, gives the instruction back, each operand at
every value its encoding holds (30_encoding.md R90, R93 to R97). An encoding drops operand bits of RAMXWIN alone: its columns
come back rounded to 8-pixel units (R94), and the instruction that comes back does what the first one does. -/
def Obligations.DecodeEncodeAgree : Prop :=
  ∀ i : Instr, i.wf = true →
    (∀ rest, decode i.format (encode i ++ rest) = .ok i.canon rest) ∧
    (∀ s : State, exec i.canon s = exec i s) ∧
    ((∀ xs xe, i ≠ .ramxwin xs xe) → i.canon = i) ∧
    (∀ xs xe, i = .ramxwin xs xe → xs.toNat % 8 = 0 → xs.toNat < 2048 → xe.toNat % 8 = 0 → xe.toNat < 2048 → i.canon = i)

/-- Every word has one meaning: bytes that decode to an instruction begin with that instruction's encoding. -/
def Obligations.EncodeDecodeAgree : Prop :=
  ∀ f bs i rest, decode f bs = .ok i rest → i.format = f ∧ i.wf = true ∧ encode i ++ rest = bs

/-- Sample words of the spec's tables, one of each row (30_encoding.md R90, R93, R96, R97). That an opcode byte alone reads as its
instruction with operand bytes of zero, in the clauses of 0x44 and 0x45, is the model's own reading (log 12). -/
def Obligations.TableWordsDecode : Prop :=
  decodeTableWord 8 0b00010010 = some .swreset ∧
  decodeTableWord 8 0b00000001 = some .drvout ∧
  decodeTableWord 8 0b00010001 = some .dentry ∧
  decodeTableWord 8 0b01000100 = some (.ramxwin 0 0) ∧
  decodeTableWord 8 0b01000101 = some (.ramywin 0 0) ∧
  decodeTableWord 8 0b01001110 = some .ramxcnt ∧
  decodeTableWord 8 0b01001111 = some .ramycnt ∧
  decodeTableWord 8 0b00111100 = some .border ∧
  decodeTableWord 8 0b00100001 = some .updctl1 ∧
  decodeTableWord 8 0b00011000 = some .tempsen ∧
  decodeTableWord 8 0b00100100 = some .wrram ∧
  decodeTableWord 8 0b00100010 = some .updctl2 ∧
  decodeTableWord 8 0b00100000 = some .activate ∧
  decodeTableWord 8 0b00010000 = some .dsleep ∧
  decodeTableWord 9 0b000010010 = some (.cmd 0x12) ∧
  decodeTableWord 9 0b111110111 = some (.dat 0xF7) ∧
  decodeTableWord 11 0b00000000111 = some (.openSession 7) ∧
  decodeTableWord 11 0b00100000000 = some .init ∧
  decodeTableWord 11 0b01011111111 = some (.paint 0xFF) ∧
  decodeTableWord 11 0b01100000000 = some .clear ∧
  decodeTableWord 11 0b10000000000 = some .paintImage ∧
  decodeTableWord 11 0b10100000000 = some .sleep

/-- The reserved host words are exactly those of 30_encoding.md R99, an idle engine refuses each of them, and no host operation
has a meaning while one runs. -/
def Obligations.ReservedHostWordsRefused : Prop :=
  (∀ w : HostWord,
    (∃ e, decodeHostWord w = .error e) ↔
      (w.toNat / 256 = 6 ∨ w.toNat / 256 = 7 ∨
        (w.toNat % 256 ≠ 0 ∧ (w.toNat / 256 = 1 ∨ w.toNat / 256 = 3 ∨ w.toNat / 256 = 4 ∨ w.toNat / 256 = 5)) ∨
        (w.toNat / 256 = 2 ∧ w.toNat % 256 ≠ 0x00 ∧ w.toNat % 256 ≠ 0xFF))) ∧
  (∀ s r rest e, s.seq = .idle → s.host = r :: rest → decodeHostWord r.word = .error e →
    step s = .refused (.reservedHostWord e)) ∧
  (∀ c s, s.seq = .idle → s.ps = .configured → c ≠ 0x00 → c ≠ 0xFF → exec (.paint c) s = .refused (.reservedColour c)) ∧
  (∀ i s op pos k, i.format = .hostWord → s.seq = .running op pos k → exec i s = .refused .notIdle)

/-- The command frame group of a panel command: what is sent is one command symbol, the opcode of the instruction's encoding,
and data symbols whose number the opcode alone decides; and DC alone tells the groups of a stream apart
(30_encoding.md R92, R100). -/
def Obligations.CommandFrameGroups : Prop :=
  (∀ i s xs, s.groupOf i = some xs → s.TransportOk xs.length →
    ∃ op data t, xs = groupSyms (op, data) ∧ (encode i).head? = some op ∧
      exec i s = .next t ∧ t.T = s.T ++ frames xs ∧
      ((op = 0x12 ∨ op = 0x20) → xs.length = 1) ∧
      ((op = 0x11 ∨ op = 0x4E ∨ op = 0x3C ∨ op = 0x18 ∨ op = 0x22 ∨ op = 0x10) → xs.length = 2) ∧
      ((op = 0x44 ∨ op = 0x4F ∨ op = 0x21) → xs.length = 3) ∧
      (op = 0x01 → xs.length = 4) ∧ (op = 0x45 → xs.length = 5) ∧ (op = 0x24 → xs.length = 1 + s.len.toNat) ∧
      op ∈ panelOpcodes) ∧
  (∀ gs : List (Byte × List Byte), groupStream (gs.flatMap groupSyms) = ([], gs))

/-! ### The Command Codec -/

/-- CMD (40_codec.md R120): the four events in order, DC low and CS high at the end, no flag written; and when the transport
fails the byte, the frame closed first and TransportFailure raised. The shift register and the record of the panel are left
open. -/
def Obligations.CmdSendsCommandSymbol : Prop :=
  ∀ (op : Byte) (s : State),
    (s.TransportOk 1 →
      ∃ sr n panel, exec (.cmd op) s = .next
        { s with
          pinDC := false
          pinCS := true
          sr := sr
          srBits := n
          T := s.T ++ [.drv .dc false, .drv .cs false, .tx op, .drv .cs true]
          seq := s.seq.after 4
          panel := panel }) ∧
    (txCount s.T + 1 ∈ s.env.txFail →
      ∃ t, exec (.cmd op) s = .next t ∧ t.T = s.T ++ [.drv .dc false, .drv .cs false, .tx op, .drv .cs true] ∧
        t.pinDC = false ∧ t.pinCS = true ∧ t.pinRST = s.pinRST ∧ t.session = s.session ∧ t.seq = .idle ∧
        t.err = .transportFailure ∧ t.errInfo = txCount t.T)

/-- DAT (40_codec.md R121): as CMD with DC high; consecutive calls each drive DC and open and close their own frame, so `n`
data bytes cost `4n` events and `n` CS pulses. -/
def Obligations.DatSendsDataSymbol : Prop :=
  (∀ (b : Byte) (s : State),
    (s.TransportOk 1 →
      ∃ sr n panel, exec (.dat b) s = .next
        { s with
          pinDC := true
          pinCS := true
          sr := sr
          srBits := n
          T := s.T ++ [.drv .dc true, .drv .cs false, .tx b, .drv .cs true]
          seq := s.seq.after 4
          panel := panel }) ∧
    (txCount s.T + 1 ∈ s.env.txFail →
      ∃ t, exec (.dat b) s = .next t ∧ t.T = s.T ++ [.drv .dc true, .drv .cs false, .tx b, .drv .cs true] ∧
        t.pinDC = true ∧ t.pinCS = true ∧ t.pinRST = s.pinRST ∧ t.session = s.session ∧ t.seq = .idle ∧
        t.err = .transportFailure ∧ t.errInfo = txCount t.T)) ∧
  (∀ (bs : List Byte) (s : State), s.TransportOk bs.length →
    ∃ t ev, s.sendSyms (bs.map fun b => (true, b)) = .done t ∧ t.T = s.T ++ ev ∧ ev.length = 4 * bs.length ∧
      ev.count (.drv .cs false) = bs.length ∧ ev.count (.drv .dc true) = bs.length)

/-- A transport failure inside a command frame group (60_exceptions.md R264): the bytes before the failing one have been sent,
its frame is closed, nothing is sent after it and nothing again, and the error holds the ordinal of the byte. That the frame buffer
is then empty and the data port as it was is the model's choice (log 7, 29). -/
def Obligations.TransportFailureEndsTheGroup : Prop :=
  ∀ i s xs j x, s.groupOf i = some xs → xs[j]? = some x → s.TransportOk j → txCount s.T + 1 + j ∈ s.env.txFail →
    ∃ t, exec i s = .next t ∧ t.T = s.T ++ frames (xs.take (j + 1)) ∧
      t.err = .transportFailure ∧ t.errInfo = txCount s.T + 1 + j ∧ t.errInfo = txCount t.T ∧
      t.pinCS = true ∧ t.pinDC = x.1 ∧ t.pinRST = s.pinRST ∧ t.seq = .idle ∧ t.fb = [] ∧
      (s.seq ≠ .idle → t.ps = .faulted) ∧ t.session = s.session ∧
      t.cfg = s.cfg ∧ t.env = s.env ∧ t.host = s.host ∧ t.port = s.port

/-- The framing of the bus is kept by every step (30_encoding.md R91, 40_codec.md R122, 70_reset_and_hazards.md R309): one byte
in each frame, DC driven only while CS is high, no sample, delay or RST drive inside a frame, and CS high between steps. -/
def Obligations.EveryStepKeepsFraming : Prop :=
  ∀ s t : State, s.Framed → step s = .next t → t.Framed

/-- The refinement of TX(b) (40_codec.md R123; its steps are general knowledge, log 15): the panel samples the eight bits, bit 7
first, on eight rising edges, and the clock is low at the end. -/
def Obligations.BitsLeaveMostSignificantFirst : Prop :=
  (∀ (m : Bool) (b : Byte), sampledBits m (txBits b) = (List.range 8).map fun i => b.getLsbD (7 - i)) ∧
  (∀ b : Byte, (txBits b).count (.sclk true) = 8 ∧ (txBits b).getLast? = some (.sclk false)) ∧
  sampledBits false (txBits 0x12) = [false, false, false, true, false, false, true, false]

/-! ### The panel commands -/

/-- SWRESET and ACTIVATE, the commands without data (41_panel_commands.md R140, R152): what each sends, and where the engine's
operations send it: SWRESET as CONFIGURE's first command, before a wait; ACTIVATE directly after UPDCTL2 and directly before a
wait. -/
def Obligations.CommandsWithoutData : Prop :=
  encode .swreset = [0x12] ∧ encode .activate = [0x20] ∧
  (∀ s : State, s.TransportOk 1 →
    (∃ t, exec .swreset s = .next t ∧ s.SentFrom [(false, 0x12)] t) ∧ (∃ t, exec .activate s = .next t ∧ s.SentFrom [(false, 0x20)] t)) ∧
  (∀ (op : Instr) (pos : Nat), spansSteps op = true → (program op)[pos]? = some (.instr .swreset) →
    op = .init ∧ (program op)[pos + 1]? = some .startWait ∧
      ∀ j i, j < pos → (program op)[j]? ≠ some (Micro.instr i)) ∧
  (∀ (op : Instr) (pos : Nat), spansSteps op = true → (program op)[pos]? = some (.instr .activate) →
    0 < pos ∧ (program op)[pos - 1]? = some (.instr .updctl2) ∧ (program op)[pos + 1]? = some .startWait)

/-- The commands with one data byte: DENTRY, RAMXCNT, BORDER, TEMPSEN, UPDCTL2, DSLEEP (41_panel_commands.md R142, R145, R147,
R149, R151, R153): what each sends; TEMPSEN is the last command of CONFIGURE, UPDCTL2 is sent by paints alone, DSLEEP by SLEEP
alone. -/
def Obligations.CommandsWithOneByte : Prop :=
  encode .dentry = [0x11] ∧ encode .ramxcnt = [0x4E] ∧ encode .border = [0x3C] ∧ encode .tempsen = [0x18] ∧
  encode .updctl2 = [0x22] ∧ encode .dsleep = [0x10] ∧
  (∀ s : State, s.TransportOk 2 →
    (∃ t, exec .dentry s = .next t ∧ s.SentFrom [(false, 0x11), (true, s.cfg.dataEntryMode)] t) ∧
    (∃ t, exec .ramxcnt s = .next t ∧ s.SentFrom [(false, 0x4E), (true, 0x00)] t) ∧
    (∃ t, exec .border s = .next t ∧ s.SentFrom [(false, 0x3C), (true, s.cfg.borderWaveform)] t) ∧
    (∃ t, exec .tempsen s = .next t ∧ s.SentFrom [(false, 0x18), (true, s.cfg.tempSensor)] t) ∧
    (∃ t, exec .updctl2 s = .next t ∧ s.SentFrom [(false, 0x22), (true, 0xF7)] t) ∧
    (∃ t, exec .dsleep s = .next t ∧ s.SentFrom [(false, 0x10), (true, s.cfg.sleepMode)] t)) ∧
  (∀ (op : Instr) (pos : Nat), spansSteps op = true → (program op)[pos]? = some (.instr .tempsen) →
    op = .init ∧ ∀ j i, pos < j → (program op)[j]? ≠ some (Micro.instr i)) ∧
  (∀ (op : Instr) (pos : Nat), spansSteps op = true → (program op)[pos]? = some (.instr .updctl2) →
    op ≠ .init ∧ op ≠ .sleep ∧ (program op)[pos - 1]? = some (.enter .refreshing) ∧
      (program op)[pos + 1]? = some (.instr .activate)) ∧
  (∀ (op : Instr) (pos : Nat), spansSteps op = true → (program op)[pos]? = some (.instr .dsleep) →
    op = .sleep ∧ (program op)[pos + 1]? = some (.enter .sleepRequested))

/-- The other commands whose data is constant: DRVOUT, RAMYCNT, UPDCTL1 (41_panel_commands.md R141, R146, R148). -/
def Obligations.CommandsWithConstantData : Prop :=
  encode .drvout = [0x01] ∧ encode .ramycnt = [0x4F] ∧ encode .updctl1 = [0x21] ∧
  (∀ s : State, s.TransportOk 4 →
    (∃ t, exec .drvout s = .next t ∧ s.SentFrom [(false, 0x01), (true, 0xF9), (true, 0x00), (true, s.cfg.gateScan)] t)) ∧
  (∀ s : State, s.TransportOk 3 →
    (∃ t, exec .ramycnt s = .next t ∧ s.SentFrom [(false, 0x4F), (true, 0x00), (true, 0x00)] t) ∧
    (∃ t, exec .updctl1 s = .next t ∧ s.SentFrom [(false, 0x21), (true, s.cfg.updateCtrlA), (true, s.cfg.updateCtrlB)] t))

/-- RAMXWIN (30_encoding.md R94, 41_panel_commands.md R143): start first, each column in 8-pixel units masked to a byte; columns
120 to 127 all give 0x0F; and the engine's operations send it with columns 0 and 121 alone. -/
def Obligations.RamXWindow : Prop :=
  (∀ (xs xe : Coord) (s : State), s.TransportOk 3 →
    encode (.ramxwin xs xe) = [0x44, BitVec.ofNat 8 (xs.toNat / 8 % 256), BitVec.ofNat 8 (xe.toNat / 8 % 256)] ∧
    ∃ t, exec (.ramxwin xs xe) s = .next t ∧
      s.SentFrom [(false, 0x44), (true, BitVec.ofNat 8 (xs.toNat / 8 % 256)), (true, BitVec.ofNat 8 (xe.toNat / 8 % 256))] t) ∧
  (∀ x : Coord, 120 ≤ x.toNat → x.toNat ≤ 127 → xByte x = 0x0F) ∧
  (∀ (op : Instr) (pos : Nat) (xs xe : Coord), spansSteps op = true → (program op)[pos]? = some (.instr (.ramxwin xs xe)) →
    xs = 0 ∧ xe = 121) ∧
  (∀ s : State, s.BufferInv → s.micro? = some .paintXWin → (∃ op pos k, s.seq = .running op pos k ∧ spansSteps op = true) →
    runMicro .paintXWin s = runMicro (.instr (.ramxwin 0 121)) s)

/-- RAMYWIN (30_encoding.md R95, 41_panel_commands.md R144): start before end, each low byte first, not scaled; a row of 256 or
more makes its second byte non-zero; and the engine's operations send it with rows 0 and 249 alone. -/
def Obligations.RamYWindow : Prop :=
  (∀ (ys ye : Coord) (s : State), s.TransportOk 5 →
    encode (.ramywin ys ye) =
      [0x45, BitVec.ofNat 8 (ys.toNat % 256), BitVec.ofNat 8 (ys.toNat / 256), BitVec.ofNat 8 (ye.toNat % 256),
        BitVec.ofNat 8 (ye.toNat / 256)] ∧
    ∃ t, exec (.ramywin ys ye) s = .next t ∧
      s.SentFrom [(false, 0x45), (true, BitVec.ofNat 8 (ys.toNat % 256)), (true, BitVec.ofNat 8 (ys.toNat / 256)),
        (true, BitVec.ofNat 8 (ye.toNat % 256)), (true, BitVec.ofNat 8 (ye.toNat / 256))] t) ∧
  (∀ y : Coord, 256 ≤ y.toNat → yHigh y ≠ 0) ∧
  (∀ (op : Instr) (pos : Nat) (ys ye : Coord), spansSteps op = true → (program op)[pos]? = some (.instr (.ramywin ys ye)) →
    ys = 0 ∧ ye = 249) ∧
  (∀ s : State, s.BufferInv → s.micro? = some .paintYWin → (∃ op pos k, s.seq = .running op pos k ∧ spansSteps op = true) →
    runMicro .paintYWin s = runMicro (.instr (.ramywin 0 249)) s)

/-- WRRAM and STREAM_BUFFER (41_panel_commands.md R150, 43_frame_buffer.md R207): the opcode once, then every byte of the buffer
in ascending index, each in a frame of its own, and IDX at LEN; with an empty buffer the opcode alone; and where the transport fails a
byte of the stream, the bytes before it have been sent. -/
def Obligations.WriteRamStreamsTheBuffer : Prop :=
  encode .wrram = [0x24] ∧
  (∀ s : State, s.TransportOk (1 + s.len.toNat) →
    ∃ t, exec .wrram s = .next t ∧
      State.SentFrom { s with idx := s.len } ((false, 0x24) :: (List.range s.len.toNat).map fun i => (true, s.memRead i)) t) ∧
  (∀ s : State, s.TransportOk s.len.toNat →
    ∃ t, s.streamBuffer = .done t ∧ t.T = s.T ++ frames ((List.range s.len.toNat).map fun i => (true, s.memRead i)) ∧
      t.idx = s.len ∧ t.T.length = s.T.length + 4 * s.len.toNat) ∧
  (∀ (s : State) (j : Nat), j < s.len.toNat → s.TransportOk j → txCount s.T + 1 + j ∈ s.env.txFail →
    ∃ t, s.streamBuffer = .raised t ∧ t.err = .transportFailure ∧
      t.T = s.T ++ frames ((List.range (j + 1)).map fun i => (true, s.memRead i)))

/-- What CMD, DAT and the fourteen panel commands leave unchanged, whether their bytes are all sent or the transport fails one:
every register but the shift register, the bus pins and the count, IDX for WRRAM alone; and without an error the status and
every byte of the frame buffer. That an error leaves the frame buffer empty is the model's choice (log 7, 29). -/
def Obligations.BusInstructionsFrame : Prop :=
  ∀ (i : Instr) (s t : State), i.format ≠ .hostWord → exec i s = .next t →
    t.pinRST = s.pinRST ∧ t.session = s.session ∧ t.w = s.w ∧ t.h = s.h ∧ t.rot = s.rot ∧ t.color = s.color ∧
    t.rowb = s.rowb ∧ t.len = s.len ∧ t.lw = s.lw ∧ t.lh = s.lh ∧ t.polls = s.polls ∧ t.cfg = s.cfg ∧ t.env = s.env ∧
    t.host = s.host ∧ t.port = s.port ∧ (i ≠ .wrram → t.idx = s.idx) ∧
    ((t.ps = s.ps ∧ t.err = s.err ∧ t.errInfo = s.errInfo ∧ (∃ n, t.seq = s.seq.after n) ∧
        ∀ a, t.fb.read? a = s.fb.read? a) ∨
      (t.err = .transportFailure ∧ t.seq = .idle ∧ t.fb = []))

/-- The panel commands reach the panel (10_state.md R37, 20_memory.md R73, R74), sent to one that is known and idle. Ten leave
their data bytes in the registers of their name, and every other register, the image RAM and the glass as they were: that a command
writes the registers of its name and no other is the model's choice (log 16, unsafe). SWRESET leaves registers and RAM unspecified
(log 16) and DSLEEP all but the byte it sends (log 21); ACTIVATE makes the glass unknown and starts a refresh where the option
register holds 0xF7 (log 20); a data byte of WRRAM goes to the cursor's address and moves the cursor (log 17), every other address
as before, and where the cursor stands outside what the spec knows nothing may be assumed any more (log 17, 19). That no byte inside
a group makes the panel busy, so that the rest of the group reaches an idle panel and a RAM write leaves it idle, is the model's
choice too (log 18, unsafe), an assumption that 70_reset_and_hazards.md R303 names as one. -/
def Obligations.CommandsWritePanelRegisters : Prop :=
  (∀ s : State, s.TransportOk 5 → s.panel.lost = false → s.panel.busy = false →
    (∃ t, exec .drvout s = .next t ∧ t.panel.ram = s.panel.ram ∧ t.panel.glass = s.panel.glass ∧
      t.panel.regs = { s.panel.regs with yMaxLow := 0xF9, yMaxHigh := 0x00, gateScan := s.cfg.gateScan }) ∧
    (∃ t, exec .dentry s = .next t ∧ t.panel.ram = s.panel.ram ∧ t.panel.glass = s.panel.glass ∧
      t.panel.regs = { s.panel.regs with dataEntry := s.cfg.dataEntryMode }) ∧
    (∀ xs xe, ∃ t, exec (.ramxwin xs xe) s = .next t ∧ t.panel.ram = s.panel.ram ∧ t.panel.glass = s.panel.glass ∧
      t.panel.regs = { s.panel.regs with xStart := xByte xs, xEnd := xByte xe }) ∧
    (∀ ys ye, ∃ t, exec (.ramywin ys ye) s = .next t ∧ t.panel.ram = s.panel.ram ∧ t.panel.glass = s.panel.glass ∧
      t.panel.regs =
        { s.panel.regs with yStartLow := yLow ys, yStartHigh := yHigh ys, yEndLow := yLow ye, yEndHigh := yHigh ye }) ∧
    (∃ t, exec .ramxcnt s = .next t ∧ t.panel.ram = s.panel.ram ∧ t.panel.glass = s.panel.glass ∧
      t.panel.regs = { s.panel.regs with xCounter := 0 }) ∧
    (∃ t, exec .ramycnt s = .next t ∧ t.panel.ram = s.panel.ram ∧ t.panel.glass = s.panel.glass ∧
      t.panel.regs = { s.panel.regs with yCounterLow := 0, yCounterHigh := 0 }) ∧
    (∃ t, exec .border s = .next t ∧ t.panel.ram = s.panel.ram ∧ t.panel.glass = s.panel.glass ∧
      t.panel.regs = { s.panel.regs with border := s.cfg.borderWaveform }) ∧
    (∃ t, exec .updctl1 s = .next t ∧ t.panel.ram = s.panel.ram ∧ t.panel.glass = s.panel.glass ∧
      t.panel.regs = { s.panel.regs with updCtl1A := s.cfg.updateCtrlA, updCtl1B := s.cfg.updateCtrlB }) ∧
    (∃ t, exec .tempsen s = .next t ∧ t.panel.ram = s.panel.ram ∧ t.panel.glass = s.panel.glass ∧
      t.panel.regs = { s.panel.regs with tempSensor := s.cfg.tempSensor }) ∧
    (∃ t, exec .updctl2 s = .next t ∧ t.panel.ram = s.panel.ram ∧ t.panel.glass = s.panel.glass ∧
      t.panel.regs = { s.panel.regs with updCtl2 := 0xF7 }) ∧
    (∃ t, exec .swreset s = .next t ∧ t.panel.ram = [] ∧ t.panel.glass = s.panel.glass ∧ t.panel.lost = false ∧
      t.panel.regs = PanelRegs.free s.panel.draws) ∧
    (∃ t, exec .dsleep s = .next t ∧ t.panel.ram = [] ∧ t.panel.glass = s.panel.glass ∧ t.panel.lost = true ∧
      t.panel.regs = { PanelRegs.free s.panel.draws with sleepCtl := s.cfg.sleepMode }) ∧
    (∃ t, exec .activate s = .next t ∧ t.panel.ram = s.panel.ram ∧ t.panel.glass = [] ∧ t.panel.regs = s.panel.regs ∧
      (t.panel.refreshing = true ↔ s.panel.regs.updCtl2 = 0xF7)) ∧
    (s.len = 0 → ∃ t, exec .wrram s = .next t ∧ t.panel.ram = s.panel.ram ∧ t.panel.glass = s.panel.glass ∧
      t.panel.regs = s.panel.regs) ∧
    (s.len = 1 → s.panel.regs.dataEntry = s.cfg.dataEntryMode → s.panel.regs.cursorInside = true →
      ∃ t, exec .wrram s = .next t ∧ t.panel.glass = s.panel.glass ∧ t.panel.regs = s.panel.regs.advance ∧
        ∀ a, t.panel.ram.read? a =
          if a = panelKey s.panel.regs.xCounter s.panel.regs.yCounter then some (s.memRead 0) else s.panel.ram.read? a)) ∧
  (∀ (b : Byte) (s : State), s.TransportOk 1 → s.panel.lost = false → s.panel.busy = false → s.panel.opcode = some 0x24 →
    (s.panel.regs.dataEntry = s.cfg.dataEntryMode → s.panel.regs.cursorInside = true →
      ∃ t, exec (.dat b) s = .next t ∧ t.panel.opcode = some 0x24 ∧ t.panel.lost = false ∧ t.panel.busy = false ∧
        t.panel.glass = s.panel.glass ∧ t.panel.regs = s.panel.regs.advance ∧
        ∀ a, t.panel.ram.read? a =
          if a = panelKey s.panel.regs.xCounter s.panel.regs.yCounter then some b else s.panel.ram.read? a) ∧
    (s.panel.regs.dataEntry ≠ s.cfg.dataEntryMode ∨ s.panel.regs.cursorInside = false →
      ∃ t, exec (.dat b) s = .next t ∧ t.panel.lost = true ∧ t.panel.ram = [] ∧ t.panel.glass = []))

/-- What the statements above leave open, the model's own choice (log 14, 16, 18, 19, 22, 24): the shift register holds the last
byte sent; the record of the panel is what its bytes, the reset pulse, the samples and the completion of INIT make of it; after a
failed byte or a wait that the bound ended nothing may be assumed of the panel; and a failed byte outside an operation leaves PS. -/
def Obligations.PanelRecordFollowsTheTrace : Prop :=
  (∀ i s xs x, (s.groupOf i = some xs ∨ (∃ b, i = .cmd b ∧ xs = [(false, b)]) ∨ ∃ b, i = .dat b ∧ xs = [(true, b)]) →
    xs.getLast? = some x → s.TransportOk xs.length →
    ∃ t, exec i s = .next t ∧ t.sr = x.2 ∧ t.srBits = 0 ∧ t.panel = receiveAll s.cfg xs s.panel) ∧
  (∀ (b : Byte) (s : State), txCount s.T + 1 ∈ s.env.txFail →
    exec (.cmd b) s = .next (s.afterFailedByte false b) ∧ exec (.dat b) s = .next (s.afterFailedByte true b)) ∧
  (∀ s k, s.seq = .running .init 0 k → ∃ t, step s = .next t ∧ t.panel = s.panel.latchReset) ∧
  (∀ s op pos k, s.seq = .running op pos k → (program op)[pos]? = some .poll →
    ∃ t, step s = .next t ∧
      (s.env.busyAnswer = false → t.panel = s.panel.sampled false) ∧
      (s.env.busyAnswer = true → t.seq ≠ .idle → t.panel = s.panel.sampled true) ∧
      (s.env.busyAnswer = true → t.seq = .idle → t.panel = (s.panel.sampled true).lose)) ∧
  (∀ s pos k, s.seq = .running .init pos k → pos + 1 = (program .init).length →
    ∃ t, step s = .next t ∧ t.panel = s.panel.recovered)

/-- Commands while the panel is busy (20_memory.md R72, 70_reset_and_hazards.md R303; 93_implementation_defined.md U1): a byte that
reaches a panel that may be busy leaves its registers, its RAM and its glass without a known value; no step changes that but the
one that completes an INIT; and until then the RAM stays unknown, what INIT writes being pending. Where the panel may become busy is
log 18; how the record holds all this is log 19. -/
def Obligations.NothingIsAssumedUntilInitCompletes : Prop :=
  (∀ (cfg : Params) (dc : Bool) (b : Byte) (p : Panel), p.busy = true →
    (p.receive cfg dc b).lost = true ∧ (p.receive cfg dc b).pending = none ∧ (p.receive cfg dc b).ram = [] ∧
      (p.receive cfg dc b).glass = [] ∧ (p.receive cfg dc b).regs = PanelRegs.free p.draws ∧
      (p.receive cfg dc b).hazard = true) ∧
  (∀ s t : State, step s = .next t → s.panel.lost = true → t.panel.lost = false →
    ∃ pos k, s.seq = .running .init pos k ∧ t.seq = .idle ∧ t.ps = .configured ∧ t.err = s.err ∧ t.T = s.T) ∧
  (∀ s t : State, s.LostInv → step s = .next t → t.LostInv)

/-! ### The Panel State Machine -/

/-- RESET_PULSE (42_panel_state_machine.md R171): six events, three drives of RST each with its hold, no byte; PS Resetting, RST
left at 1, and nothing else of the engine changed. -/
def Obligations.ResetPulse : Prop :=
  ∀ s k, s.seq = .running .init 0 k →
    ∃ panel, step s = .next
      { s with
        ps := .resetting
        pinRST := true
        T := s.T ++ [.drv .rst true, .dly 20, .drv .rst false, .dly 2, .drv .rst true, .dly 20]
        seq := .running .init 1 (k + 6)
        panel := panel }

/-- WAIT_IDLE (42_panel_state_machine.md R172, 60_exceptions.md R263), from its entry: with `m` high samples before a low one, and
the bound not reached, it ends after `2m + 1` events; at the bound it raises DeviceUnresponsive with the polls taken and no
further delay; with no bound it never ends while BUSY reads high. After every wait of a host operation PS becomes Configured. The
panel's record, and what error entry does to the frame buffer, are left open. -/
def Obligations.WaitIdle : Prop :=
  (∀ (op : Instr) (pos : Nat), spansSteps op = true → (program op)[pos]? = some .startWait →
    (program op)[pos + 1]? = some .poll ∧ (program op)[pos + 2]? = some (.enter .configured)) ∧
  ∀ s op pos k, s.seq = .running op pos k → (program op)[pos]? = some .startWait → (program op)[pos + 1]? = some .poll →
    pos + 2 < (program op).length →
    (∀ m, s.env.busyAnswers (m + 1) = waitAnswers m → (∀ n, s.cfg.busyTimeoutPolls = some n → m < n) →
      ∃ panel, runFor (m + 2) s = .next
        { s with
          ps := .awaitingIdle
          polls := m + 1
          T := s.T ++ waitTrace m
          seq := .running op (pos + 2) (k + 2 * m + 1)
          panel := panel
          env := s.env.afterSamples (m + 1) }) ∧
    (∀ n, s.cfg.busyTimeoutPolls = some (n + 1) → s.env.busyAnswers (n + 1) = List.replicate (n + 1) true →
      ∃ panel fb, runFor (n + 2) s = .next
        { s with
          ps := .faulted
          err := .deviceUnresponsive
          errInfo := n + 1
          polls := n + 1
          T := s.T ++ (List.replicate n [Event.smp true, Event.dly 10]).flatten ++ [.smp true]
          seq := .idle
          fb := fb
          panel := panel
          env := s.env.afterSamples (n + 1) }) ∧
    (∀ n, s.cfg.busyTimeoutPolls = none → s.env.busyAnswers n = List.replicate n true →
      ∃ t, runFor (n + 1) s = .next t ∧ t.T = s.T ++ (List.replicate n [Event.smp true, Event.dly 10]).flatten ∧
        t.ps = .awaitingIdle ∧ t.seq = .running op (pos + 1) (k + 2 * n) ∧ t.err = s.err)

/-- The transition relation of PS (42_panel_state_machine.md R170): every step leaves PS as it is or makes one of the table's
transitions, for the table's reason. The wait after which PS becomes Configured has ended with a low sample: the panel is not
busy. -/
def Obligations.PanelStateTransitions : Prop :=
  ∀ s t : State, s.SequencingInv → step s = .next t → s.ps ≠ t.ps →
    (t.ps = .resetting ∧ ∃ k, s.seq = .running .init 0 k) ∨
    (s.ps = .resetting ∧ t.ps = .awaitingIdle ∧ s.micro? = some .startWait) ∨
    (s.ps = .awaitingIdle ∧ t.ps = .configured ∧ s.micro? = some (.enter .configured) ∧ s.panel.busy = false) ∨
    (s.ps = .configured ∧ t.ps = .awaitingIdle ∧ s.micro? = some .startWait ∧ ∃ pos k, s.seq = .running .init pos k) ∨
    (s.ps = .configured ∧ t.ps = .refreshing ∧ s.micro? = some (.enter .refreshing)) ∨
    (s.ps = .refreshing ∧ t.ps = .awaitingIdle ∧ s.micro? = some .startWait) ∨
    (s.ps = .configured ∧ t.ps = .sleepRequested ∧ s.micro? = some (.enter .sleepRequested)) ∨
    (t.ps = .faulted ∧ s.seq ≠ .idle ∧ t.seq = .idle ∧ (t.err = .deviceUnresponsive ∨ t.err = .transportFailure))

/-- The engine's sequencing is kept by every step (70_reset_and_hazards.md R303, R304, R305; 10_state.md R26; 44_orchestrator.md
R231): under the assumptions that R303 itself makes (a low sample means that the panel has finished, and the panel becomes busy
only at the places named; where those are in the model is log 18, unsafe) no byte reaches a panel that may be busy; the operation
that runs is one of the host's with a session open, PS is at rest when none runs, and the rest of every expansion is in order. -/
def Obligations.EveryStepKeepsSequencing : Prop :=
  ∀ s t : State, s.SequencingInv → step s = .next t → t.SequencingInv

/-- The invariants hold at reset. -/
def Obligations.InvariantsAtReset : Prop :=
  State.reset.SequencingInv ∧ State.reset.Framed ∧ State.reset.BufferInv ∧ State.reset.MemoriesCanonical ∧
    State.reset.NoIdleBuffer ∧ State.reset.LostInv

/-- While an operation runs every step answers a next state, and an idle engine never faults: an operation once accepted is
never left without a meaning. -/
def Obligations.RunningOperationsStep : Prop :=
  ∀ s : State, s.SequencingInv → (s.seq ≠ .idle → ∃ t, step s = .next t) ∧ ∀ f, step s ≠ .fault f

/-- The panel opcodes the engine sends (30_encoding.md R98): every command symbol of a step is one of the fourteen, and 0x10 is
sent by SLEEP alone. -/
def Obligations.OnlyTableOpcodesAreSent : Prop :=
  ∀ s t : State, s.SequencingInv → step s = .next t →
    ∃ ev, t.T = s.T ++ ev ∧ ∀ b, (false, b) ∈ byteStreamFrom s.pinDC ev →
      b ∈ panelOpcodes ∧ (b = 0x10 → ∃ pos k, s.seq = .running .sleep pos k)

/-- Where the waits are (42_panel_state_machine.md R178): in the host operations a wait stands directly after the reset pulse,
SWRESET, TEMPSEN and ACTIVATE, and nowhere else; its loop follows its entry. -/
def Obligations.WaitsArePlaced : Prop :=
  ∀ op : Instr, spansSteps op = true →
    (∀ pos, (program op)[pos]? = some .startWait ↔
      0 < pos ∧
        ((program op)[pos - 1]? = some .resetPulse ∨ (program op)[pos - 1]? = some (.instr .swreset) ∨
          (program op)[pos - 1]? = some (.instr .tempsen) ∨ (program op)[pos - 1]? = some (.instr .activate))) ∧
    (∀ pos, (program op)[pos]? = some .poll ↔ 0 < pos ∧ (program op)[pos - 1]? = some .startWait)

/-! ### The Frame Buffer Builder -/

/-- ROW_BYTES (43_frame_buffer.md R200): the two cases, equal to the ceiling, and the boundary values. -/
def Obligations.RowBytes : Prop :=
  (∀ w : Coord, (rowBytes w).toNat = if w.toNat % 8 = 0 then w.toNat / 8 else w.toNat / 8 + 1) ∧
  (∀ w : Coord, (rowBytes w).toNat = (w.toNat + 7) / 8 ∧ (rowBytes w).toNat ≤ 8192) ∧
  rowBytes 0 = 0 ∧ rowBytes 1 = 1 ∧ rowBytes 8 = 1 ∧ rowBytes 9 = 2 ∧
  rowBytes 120 = 15 ∧ rowBytes 121 = 16 ∧ rowBytes 122 = 16 ∧ rowBytes 128 = 16

/-- BUILD_BUFFER (43_frame_buffer.md R201, R202, R203): the operand registers loaded, ROWB and LEN computed exactly, LEN bytes
each the fill and no other index, nothing else written and no event; the rotation changes LW and LH alone (R205, R206). And the step of a paint's build
is that of the whole panel. -/
def Obligations.BuildBuffer : Prop :=
  (∀ (w h : Coord) (rot : Rotation) (c : Byte) (s : State),
    (s.buildBuffer w h rot c).w = w ∧ (s.buildBuffer w h rot c).h = h ∧ (s.buildBuffer w h rot c).rot = rot ∧
    (s.buildBuffer w h rot c).color = c ∧
    (s.buildBuffer w h rot c).rowb.toNat = (w.toNat + 7) / 8 ∧
    (s.buildBuffer w h rot c).len.toNat = (w.toNat + 7) / 8 * h.toNat ∧
    (rot = .r0 ∨ rot = .r180 → (s.buildBuffer w h rot c).lw = w ∧ (s.buildBuffer w h rot c).lh = h) ∧
    (rot = .r90 ∨ rot = .r270 → (s.buildBuffer w h rot c).lw = h ∧ (s.buildBuffer w h rot c).lh = w) ∧
    (∀ i, (s.buildBuffer w h rot c).fb.read? i = if i < (w.toNat + 7) / 8 * h.toNat then some c else none) ∧
    s.buildBuffer w h rot c =
      { s with
        w := w
        h := h
        rot := rot
        color := c
        rowb := (s.buildBuffer w h rot c).rowb
        len := (s.buildBuffer w h rot c).len
        lw := (s.buildBuffer w h rot c).lw
        lh := (s.buildBuffer w h rot c).lh
        fb := (s.buildBuffer w h rot c).fb }) ∧
  (∀ s op k c, s.seq = .running op 0 k → (program op)[0]? = some (.build c) →
    step s = .next { s.buildBuffer 122 250 s.cfg.rot c with seq := .running op 1 k })

/-- The image takes the place of the fill (43_frame_buffer.md R209): its bytes in ascending index, unchanged, and no event. That
the data port is empty afterwards is the model's choice (log 30). -/
def Obligations.ImageTakesThePlaceOfTheFill : Prop :=
  ∀ s k, s.seq = .running .paintImage 1 k → s.port.length = 4000 → s.len = 4000 →
    ∃ fb, step s = .next { s with fb := fb, port := [], seq := .running .paintImage 2 k } ∧
      ∀ i, fb.read? i = s.port[i]?

/-- The layout and the polarity of the buffer (20_memory.md R61, R62, R63): the pixel at column `x` of row `y` lies in byte
`y*ROWB + x/8`, inside the buffer, in the bit PIXEL_MSB_FIRST says; two pixels never share a bit; in a white fill every pixel is
set, in a black one every pixel is clear. -/
def Obligations.PixelLayout : Prop :=
  ∀ (w h : Coord) (rot : Rotation) (c : Byte) (s : State) (x y : Coord), x < w → y < h →
    (s.buildBuffer w h rot c).pixel x y =
      ((s.buildBuffer w h rot c).memRead (y.toNat * ((w.toNat + 7) / 8) + x.toNat / 8)).getLsbD
        (if s.cfg.pixelMsbFirst = true then 7 - x.toNat % 8 else x.toNat % 8) ∧
    y.toNat * ((w.toNat + 7) / 8) + x.toNat / 8 < (s.buildBuffer w h rot c).len.toNat ∧
    (c = 0xFF → (s.buildBuffer w h rot c).pixel x y = true) ∧ (c = 0x00 → (s.buildBuffer w h rot c).pixel x y = false) ∧
    (∀ x' y' : Coord, x' < w → y' < h →
      pixelIndex (rowBytes w) x y = pixelIndex (rowBytes w) x' y' →
      pixelBit s.cfg.pixelMsbFirst x = pixelBit s.cfg.pixelMsbFirst x' → x = x' ∧ y = y')

/-- No operation streams a byte that has not been written. Every step keeps that while a paint runs, past its first micro-step,
the builder's registers are those of the whole panel and every byte of the buffer holds a value (43_frame_buffer.md R203, R210;
10_state.md R31, R32); and when a host operation comes to WRRAM every byte that will be streamed holds one. -/
def Obligations.EveryStepKeepsTheBufferWritten : Prop :=
  (∀ s t : State, s.BufferInv → step s = .next t → t.BufferInv) ∧
  (∀ s : State, s.SequencingInv → s.BufferInv → s.micro? = some (.instr .wrram) →
    0 < s.len.toNat ∧ ∀ i, i < s.len.toNat → (s.fb.read? i).isSome = true)

/-- The frame buffer is transient (10_state.md R33, 43_frame_buffer.md R210): every step keeps that it holds no value while no
operation runs, however the last one ended. That the model empties it then is log 7 and 29. -/
def Obligations.EveryStepKeepsNoIdleBuffer : Prop :=
  ∀ s t : State, s.NoIdleBuffer → step s = .next t → t.NoIdleBuffer

/-! ### The host operations -/

/-- OPEN (44_orchestrator.md R231, 60_exceptions.md R262, R268): the identifier is checked first, then the transport; each of the
three outcomes, with no event and PS unchanged; and its precondition. What the model makes of the frame buffer and of the
environment's answers is left open (OpenConsultsTheTransport says it). -/
def Obligations.OpenOutcomes : Prop :=
  ∀ (m : Byte) (s : State),
    (s.seq = .idle → s.session = .closed →
      (m ≠ s.cfg.modelIdProfile0 →
        ∃ fb env, exec (.openSession m) s =
          .next { s with err := .unsupportedConfiguration, errInfo := m.toNat, seq := .idle, fb := fb, env := env }) ∧
      (m = s.cfg.modelIdProfile0 → s.env.transportAnswer = false →
        ∃ fb env, exec (.openSession m) s =
          .next { s with err := .acquisitionFailure, errInfo := 0, seq := .idle, fb := fb, env := env }) ∧
      (m = s.cfg.modelIdProfile0 → s.env.transportAnswer = true →
        ∃ info fb env, exec (.openSession m) s =
          .next { s with session := .opened, err := .noError, errInfo := info, seq := .idle, fb := fb, env := env })) ∧
    (s.seq = .idle → s.session = .opened → exec (.openSession m) s = .refused .sessionAlreadyOpen) ∧
    (s.seq ≠ .idle → exec (.openSession m) s = .refused .notIdle)

/-- OPEN consults the transport once, and only for the recognised identifier (log 4); the frame buffer is empty when it is over
(log 7, 29) and ERRINFO 0 when it succeeds (log 9): the model's choices, which OpenOutcomes leaves open. -/
def Obligations.OpenConsultsTheTransport : Prop :=
  ∀ (m : Byte) (s : State), s.seq = .idle → s.session = .closed →
    ∃ t, exec (.openSession m) s = .next t ∧ t.fb = [] ∧ t.panel = s.panel ∧
      t.env = (if m = s.cfg.modelIdProfile0 then s.env.afterTransport else s.env) ∧ (t.err = .noError → t.errInfo = 0)

/-- AcquisitionFailure (60_exceptions.md R261): raised by OPEN when the transport is not available and by INIT without a session,
and by nothing else; no event, the session Closed and PS unchanged. What the model makes of the frame buffer is left open. -/
def Obligations.AcquisitionFailure : Prop :=
  (∀ m s, s.seq = .idle → s.session = .closed → m = s.cfg.modelIdProfile0 → s.env.transportAnswer = false →
    ∃ t, exec (.openSession m) s = .next t ∧ t.err = .acquisitionFailure ∧ t.errInfo = 0 ∧ t.T = s.T ∧
      t.session = .closed ∧ t.ps = s.ps ∧ t.seq = .idle) ∧
  (∀ s : State, s.seq = .idle → s.session = .closed →
    ∃ fb, exec .init s = .next { s with err := .acquisitionFailure, errInfo := 0, seq := .idle, fb := fb }) ∧
  (∀ s t : State, step s = .next t → s.err ≠ .acquisitionFailure → t.err = .acquisitionFailure →
    s.seq = .idle ∧ s.session = .closed ∧ t.session = .closed ∧ t.T = s.T ∧ t.ps = s.ps ∧
      ∃ r rest i, s.host = r :: rest ∧ decodeHostWord r.word = .ok i ∧ (i = .init ∨ ∃ m, i = .openSession m))

/-- Operations without a meaning (60_exceptions.md R270): a host operation is refused exactly where its precondition fails, and
never faults; a reserved word is refused. -/
def Obligations.OperationsWithoutAMeaning : Prop :=
  (∀ s r rest e, s.seq = .idle → s.host = r :: rest → decodeHostWord r.word = .error e →
    step s = .refused (.reservedHostWord e)) ∧
  ∀ i s, i.format = .hostWord →
    (∀ f, exec i s ≠ .fault f) ∧
    ((∃ r, exec i s = .refused r) ↔
      s.seq ≠ .idle ∨
      ((∃ m, i = .openSession m) ∧ s.session = .opened) ∨
      (((∃ c, i = .paint c) ∨ i = .clear ∨ i = .paintImage ∨ i = .sleep) ∧ s.ps ≠ .configured) ∨
      (i = .paintImage ∧ s.port.length ≠ 4000) ∨
      (∃ c, i = .paint c ∧ c ≠ 0x00 ∧ c ≠ 0xFF))

/-- What a host operation's acceptance leaves unchanged: the pins, every register but the status, the panel and the trace; and
where the operation is not yet over, every byte of the frame buffer (44_orchestrator.md R230; that ERRINFO is cleared is log 9). -/
def Obligations.AcceptanceFrame : Prop :=
  ∀ (i : Instr) (s t : State), i.format = .hostWord → exec i s = .next t →
    t.pinCS = s.pinCS ∧ t.pinDC = s.pinDC ∧ t.pinRST = s.pinRST ∧ t.ps = s.ps ∧ t.sr = s.sr ∧ t.srBits = s.srBits ∧
    t.w = s.w ∧ t.h = s.h ∧ t.rot = s.rot ∧ t.color = s.color ∧ t.rowb = s.rowb ∧ t.len = s.len ∧ t.lw = s.lw ∧ t.lh = s.lh ∧
    t.idx = s.idx ∧ t.polls = s.polls ∧ t.T = s.T ∧ t.panel = s.panel ∧ t.cfg = s.cfg ∧ t.host = s.host ∧ t.port = s.port ∧
    ((∀ m, i ≠ .openSession m) → t.session = s.session ∧ t.env = s.env) ∧
    (t.seq = .idle ∨ (t.seq = .running i 0 0 ∧ t.err = .noError ∧ t.errInfo = 0 ∧ ∀ a, t.fb.read? a = s.fb.read? a))

/-- INIT (44_orchestrator.md R232, 42_panel_state_machine.md R173): accepted with a session open from any PS, it sends the reset
pulse, a wait, the software reset, a wait, the configuration and a wait, whatever the number of high samples in each, and ends
Configured with no error; nothing else of the engine has changed, and the glass has not. ERRINFO (log 9), the shift register
(log 14), the glass (log 20) and the empty frame buffer (log 7) are as the model has them. -/
def Obligations.InitCompletes : Prop :=
  ∀ s m₁ m₂ m₃, s.seq = .idle → s.session = .opened → s.TransportOk 27 →
    s.env.busyAnswers (m₁ + m₂ + m₃ + 3) = waitAnswers m₁ ++ waitAnswers m₂ ++ waitAnswers m₃ →
    (∀ n, s.cfg.busyTimeoutPolls = some n → m₁ < n ∧ m₂ < n ∧ m₃ < n) →
    ∃ u n panel,
      exec .init s = .next u ∧ panel.glass = s.panel.glass ∧
      runFor n u = .next
        { s with
          pinCS := true
          pinDC := true
          pinRST := true
          ps := .configured
          err := .noError
          errInfo := 0
          seq := .idle
          sr := s.cfg.tempSensor
          srBits := 0
          fb := []
          polls := m₃ + 1
          T := s.T ++ resetTrace ++ waitTrace m₁ ++ frames [(false, 0x12)] ++ waitTrace m₂ ++ frames (configSyms s.cfg) ++
            waitTrace m₃
          panel := panel
          env := s.env.afterSamples (m₁ + m₂ + m₃ + 3) }

/-- What INIT leaves in the panel (10_state.md R37, 70_reset_and_hazards.md R301; 93_implementation_defined.md U1): whatever the
panel was, its registers hold what the engine wrote, the two it does not write hold free values, and it is idle and known again.
That each command writes the registers of its name and no other is log 16; where the panel may be busy is log 18, that it is known
again is log 19, that the glass is as it was is log 20: the model's choices. -/
def Obligations.InitConfiguresThePanel : Prop :=
  ∀ s m₁ m₂ m₃, s.seq = .idle → s.session = .opened → s.TransportOk 27 →
    s.env.busyAnswers (m₁ + m₂ + m₃ + 3) = waitAnswers m₁ ++ waitAnswers m₂ ++ waitAnswers m₃ →
    (∀ n, s.cfg.busyTimeoutPolls = some n → m₁ < n ∧ m₂ < n ∧ m₃ < n) →
    ∃ u n t, exec .init s = .next u ∧ runFor n u = .next t ∧ t.seq = .idle ∧ t.ps = .configured ∧
      t.panel.busy = false ∧ t.panel.lost = false ∧ t.panel.pending = none ∧ t.panel.ram = [] ∧ t.panel.glass = s.panel.glass ∧
      t.panel.regs =
        { PanelRegs.free (s.panel.draws + 2) with
          yMaxLow := 0xF9, yMaxHigh := 0x00, gateScan := s.cfg.gateScan, dataEntry := s.cfg.dataEntryMode
          xStart := 0x00, xEnd := 0x0F, yStartLow := 0x00, yStartHigh := 0x00, yEndLow := 0xF9, yEndHigh := 0x00
          xCounter := 0x00, yCounterLow := 0x00, yCounterHigh := 0x00, border := s.cfg.borderWaveform
          updCtl1A := s.cfg.updateCtrlA, updCtl1B := s.cfg.updateCtrlB, tempSensor := s.cfg.tempSensor }

/-- PAINT and CLEAR (44_orchestrator.md R233, R234): accepted when the panel is Configured, PAINT of a colour sends the window,
the cursor, the RAM write of 4000 fill bytes and the refresh trigger, and one wait, whatever the number of high samples; it ends
Configured with no error, and of the engine's state only what the operation writes has changed. CLEAR is PAINT 0xFF. ERRINFO
(log 9), the shift register (log 14) and the empty frame buffer (log 7) are as the model has them. -/
def Obligations.PaintAndClearComplete : Prop :=
  ∀ s i c m, (i = .paint c ∧ (c = 0x00 ∨ c = 0xFF)) ∨ (i = .clear ∧ c = 0xFF) →
    s.seq = .idle → s.ps = .configured → s.TransportOk 4017 →
    s.env.busyAnswers (m + 1) = waitAnswers m → (∀ n, s.cfg.busyTimeoutPolls = some n → m < n) →
    ∃ u n panel,
      exec i s = .next u ∧
      runFor n u = .next
        { s with
          pinCS := true
          pinDC := false
          ps := .configured
          err := .noError
          errInfo := 0
          seq := .idle
          sr := 0x20
          srBits := 0
          w := 122
          h := 250
          rot := s.cfg.rot
          color := c
          rowb := 16
          len := 4000
          lw := logicalW s.cfg.rot 122 250
          lh := logicalH s.cfg.rot 122 250
          fb := []
          idx := 4000
          polls := m + 1
          T := s.T ++ frames (paintSyms (List.replicate 4000 c)) ++ waitTrace m
          panel := panel
          env := s.env.afterSamples (m + 1) }

/-- PAINT_IMAGE (44_orchestrator.md R235): as PAINT, with the 4000 bytes of the data port in ascending index; the
port is empty afterwards (log 30). ERRINFO (log 9), the shift register (log 14) and the empty frame buffer (log 7) are as the
model has them. -/
def Obligations.PaintImageCompletes : Prop :=
  ∀ s m, s.seq = .idle → s.ps = .configured → s.port.length = 4000 → s.TransportOk 4017 →
    s.env.busyAnswers (m + 1) = waitAnswers m → (∀ n, s.cfg.busyTimeoutPolls = some n → m < n) →
    ∃ u n panel,
      exec .paintImage s = .next u ∧
      runFor n u = .next
        { s with
          pinCS := true
          pinDC := false
          ps := .configured
          err := .noError
          errInfo := 0
          seq := .idle
          sr := 0x20
          srBits := 0
          w := 122
          h := 250
          rot := s.cfg.rot
          color := 0xFF
          rowb := 16
          len := 4000
          lw := logicalW s.cfg.rot 122 250
          lh := logicalH s.cfg.rot 122 250
          fb := []
          port := []
          idx := 4000
          polls := m + 1
          T := s.T ++ frames (paintSyms s.port) ++ waitTrace m
          panel := panel
          env := s.env.afterSamples (m + 1) }

/-- SLEEP (44_orchestrator.md R236, 42_panel_state_machine.md R177): the deep-sleep group, eight events, no wait, and PS
SleepRequested. ERRINFO (log 9), the shift register (log 14) and the frame buffer, empty as after every operation (10_state.md R33,
43_frame_buffer.md R210; log 7), are as the model has them. -/
def Obligations.SleepCompletes : Prop :=
  ∀ s : State, s.seq = .idle → s.ps = .configured → s.TransportOk 2 →
    ∃ u panel,
      exec .sleep s = .next u ∧
      runFor 2 u = .next
        { s with
          pinCS := true
          pinDC := true
          ps := .sleepRequested
          err := .noError
          errInfo := 0
          seq := .idle
          sr := s.cfg.sleepMode
          srBits := 0
          fb := []
          T := s.T ++ [.drv .dc false, .drv .cs false, .tx 0x10, .drv .cs true,
            .drv .dc true, .drv .cs false, .tx s.cfg.sleepMode, .drv .cs true]
          panel := panel }

/-- Absence of hidden state (44_orchestrator.md R237): the sub-trace of any PAINT that completes without error, its SMP and DLY
events removed, is a function of the colour alone, whatever the state it starts in, the rotation, and what the environment
answers; that of INIT depends on the parameters alone. The run is of that operation alone: no further word is queued. -/
def Obligations.PaintsHaveNoHiddenState : Prop :=
  (∀ s u t n c, exec (.paint c) s = .next u → s.host = [] → runFor n u = .next t → t.seq = .idle → t.err = .noError →
    withoutPolls t.T = withoutPolls s.T ++ frames (paintSyms (List.replicate 4000 c))) ∧
  (∀ s u t n, exec .clear s = .next u → s.host = [] → runFor n u = .next t → t.seq = .idle → t.err = .noError →
    withoutPolls t.T = withoutPolls s.T ++ frames (paintSyms (List.replicate 4000 0xFF))) ∧
  (∀ s u t n, exec .init s = .next u → s.host = [] → runFor n u = .next t → t.seq = .idle → t.err = .noError →
    withoutPolls t.T = withoutPolls s.T ++ [.drv .rst true, .drv .rst false, .drv .rst true] ++ frames [(false, 0x12)] ++
      frames (configSyms s.cfg))

/-- When a paint completes the glass shows the buffer it sent (20_memory.md R74, R78), under the assumptions of R70 to R75, as the
model holds them (log 16, 18, 20), and the general-knowledge wrap of the address counter (log 17): with a panel that is known, idle
and in the data-entry mode the engine selects, byte `16*y + xa` of the buffer is on the glass at `(xa, y)`; and the panel is again
known, idle and in that mode. -/
def Obligations.GlassShowsTheBuffer : Prop :=
  ∀ s i data m,
    (i = .paint 0x00 ∧ data = List.replicate 4000 0x00) ∨ (i = .paint 0xFF ∧ data = List.replicate 4000 0xFF) ∨
      (i = .clear ∧ data = List.replicate 4000 0xFF) ∨ (i = .paintImage ∧ data = s.port ∧ data.length = 4000) →
    s.seq = .idle → s.ps = .configured → s.TransportOk 4017 →
    s.env.busyAnswers (m + 1) = waitAnswers m → (∀ n, s.cfg.busyTimeoutPolls = some n → m < n) →
    s.panel.lost = false → s.panel.busy = false → s.panel.regs.dataEntry = s.cfg.dataEntryMode →
    ∃ u n t, exec i s = .next u ∧ runFor n u = .next t ∧ t.seq = .idle ∧ t.err = .noError ∧
      t.panel.lost = false ∧ t.panel.busy = false ∧ t.panel.regs.dataEntry = t.cfg.dataEntryMode ∧
      ∀ x y : Coord, x.toNat < 122 → y.toNat < 250 →
        t.panel.white? t.cfg x y =
          (data[16 * y.toNat + x.toNat / 8]?).map fun b => b.getLsbD (pixelBit s.cfg.pixelMsbFirst x)

/-! ### Errors -/

/-- Error entry (60_exceptions.md R266): an operation that ends with an error has emitted an event and leaves PS Faulted; one that
fails at its acceptance has emitted none and leaves PS. Either way the operation is over, the session stays, the error and its
detail are recorded, no further event is appended and CS is high. That the frame buffer is then empty is the model's choice (log 7,
29). -/
def Obligations.ErrorEntry : Prop :=
  (∀ s t op pos k, s.seq = .running op pos k → s.err = .noError → step s = .next t → t.err ≠ .noError →
    t.seq = .idle ∧ t.ps = .faulted ∧ t.session = s.session ∧ t.pinRST = s.pinRST ∧ (s.pinCS = true → t.pinCS = true) ∧
    t.fb = [] ∧ t.T ≠ s.T ∧
    ((t.err = .transportFailure ∧ t.errInfo = txCount t.T ∧ ∃ b, t.T.getLast? = some (.drv .cs true) ∧
        t.T.dropLast.getLast? = some (.tx b)) ∨
      (t.err = .deviceUnresponsive ∧ t.errInfo = t.polls ∧ t.T = s.T ++ [.smp true] ∧
        s.cfg.busyTimeoutPolls ≠ none))) ∧
  (∀ (i : Instr) (s t : State), i.format = .hostWord → exec i s = .next t → t.err ≠ .noError →
    t.seq = .idle ∧ t.ps = s.ps ∧ t.session = s.session ∧ t.T = s.T ∧
    (t.err = .acquisitionFailure ∧ t.errInfo = 0 ∨ ∃ m, i = .openSession m ∧ t.err = .unsupportedConfiguration ∧
      t.errInfo = m.toNat))

/-- Return and recovery (60_exceptions.md R267): the next accepted operation clears ERR, and ERRINFO with it (log 9); from Faulted only INIT has a meaning; after
a failed OPEN, OPEN may be issued again. -/
def Obligations.RecoveryIsByInit : Prop :=
  (∀ s : State, s.SequencingInv → s.seq = .idle → s.ps = .faulted →
    (∀ i, i.format = .hostWord → i ≠ .init → ∃ r, exec i s = .refused r) ∧
    exec .init s = .next { s with err := .noError, errInfo := 0, seq := .running .init 0 0 }) ∧
  (∀ (i : Instr) (s t : State), i.format = .hostWord → exec i s = .next t → t.seq ≠ .idle → t.err = .noError ∧ t.errInfo = 0) ∧
  (∀ m s t, exec (.openSession m) s = .next t → t.err ≠ .noError → ∀ m', ∃ u, exec (.openSession m') t = .next u)

/-! ### The whole machine -/

/-- The state the engine leaves reset in, as far as the spec gives it (10_state.md R40, 70_reset_and_hazards.md R300), and it
executes nothing until the host presents a word. -/
def Obligations.ResetState : Prop :=
  State.reset.pinCS = true ∧ State.reset.ps = .unpowered ∧ State.reset.session = .closed ∧ State.reset.err = .noError ∧
  State.reset.errInfo = 0 ∧ State.reset.seq = .idle ∧ State.reset.T = [] ∧ step State.reset = .next State.reset

/-- A step runs the decoded instruction. An idle engine takes the host's word and runs what it decodes to, its image bytes on the
data port; a running operation executes the instruction at its position, and then stands at the next micro-step or is over; an
idle engine without a word does nothing; and a table word placed for fetching is what the next step runs. The list of words and
what placing one does are the model's choice (log 11), as are the reading of a table word (log 12), a micro-operation that runs by
itself (log 32), the empty frame buffer at an operation's end (log 7) and the panel known again at INIT's (log 19). -/
def Obligations.StepRunsTheDecodedInstruction : Prop :=
  (∀ s r rest i, s.seq = .idle → s.host = r :: rest → decodeHostWord r.word = .ok i →
    step s = exec i { s with host := rest, port := r.image }) ∧
  (∀ s op pos k i t, s.seq = .running op pos k → (program op)[pos]? = some (.instr i) → exec i s = .next t →
    step s = .next t.advance) ∧
  (∀ s : State, s.seq = .idle → s.host = [] → step s = .next s) ∧
  (∀ (t : State) (op : Instr) (pos k : Nat), t.seq = .running op pos k →
    t.advance = if pos + 1 < (program op).length then { t with seq := .running op (pos + 1) k }
      else { t with panel := if op = .init then t.panel.recovered else t.panel, seq := .idle, fb := [] }) ∧
  (∀ (s : State) (nbits w : Nat) (i : Instr), decodeTableWord nbits w = some i → i.format = .hostWord →
    step (s.withFetchWord nbits w) = exec i { s with seq := .idle }) ∧
  (∀ (s : State) (nbits w : Nat) (i : Instr) (t : State), decodeTableWord nbits w = some i → i.format ≠ .hostWord →
    exec i { s with seq := .running i 0 0 } = .next t → step (s.withFetchWord nbits w) = .next t.advance)

/-- What no step ever changes or undoes (10_state.md R27, R36, R38): the parameters are constant, the trace only grows, and a
session once open stays open. -/
def Obligations.EveryStepKeepsParametersTraceAndSession : Prop :=
  ∀ s t : State, step s = .next t →
    t.cfg = s.cfg ∧ t.env.txFail = s.env.txFail ∧ (∃ ev, t.T = s.T ++ ev) ∧ (s.session = .opened → t.session = .opened)

/-- Every step keeps the memories in their canonical form (log 7): the frame buffer, the panel's image RAM and the glass. -/
def Obligations.EveryStepKeepsMemoriesCanonical : Prop :=
  ∀ s t : State, s.MemoriesCanonical → step s = .next t → t.MemoriesCanonical

/-- RST is driven by INIT's reset pulse alone, which leaves it 1 (10_state.md R23, 44_orchestrator.md R232). -/
def Obligations.OnlyInitDrivesReset : Prop :=
  ∀ s t : State, step s = .next t →
    ∃ ev, t.T = s.T ++ ev ∧
      ((∃ l, .drv .rst l ∈ ev) ∨ t.pinRST ≠ s.pinRST → (∃ k, s.seq = .running .init 0 k) ∧ t.pinRST = true)
end

