-- ==== Sys2Proof/Laws/Memory.lean ====
section
/-! SUPPORT. The laws of memory: a read after a write, and that every operation keeps the canonical form. -/

namespace Sys2Proof.Machine

@[simp] theorem Memory.wf_nil : Memory.wf [] = true := rfl

/-- A memory is canonical when its first address is below the next and the rest is canonical. -/
theorem Memory.wf_cons (c : Host.Cell) (m : Memory) :
    Memory.wf (c :: m) = true ↔ (∀ d ∈ m.head?, c.1 < d.1) ∧ Memory.wf m = true := by
  cases m with
  | nil => simp [Memory.wf]
  | cons d rest => simp [Memory.wf]

/-- The first cell after a write is the old first one or the written one. -/
theorem Memory.head_write (m : Memory) (a : Nat) (b : Byte) (d : Host.Cell) (h : d ∈ (m.write a b).head?) :
    d.1 = a ∨ d ∈ m.head? := by
  cases m with
  | nil => simp [Memory.write] at h; exact .inl (by rw [← h])
  | cons c rest =>
    simp only [Memory.write] at h
    split at h
    · simp at h; exact .inl (by rw [← h])
    · split at h
      · simp at h; exact .inl (by rw [← h])
      · simp at h; exact .inr (by simp [h])

theorem Memory.wf_write (m : Memory) (a : Nat) (b : Byte) (h : Memory.wf m = true) : Memory.wf (m.write a b) = true := by
  induction m with
  | nil => simp [Memory.write, Memory.wf]
  | cons c rest ih =>
    obtain ⟨hc, hr⟩ := (Memory.wf_cons c rest).mp h
    simp only [Memory.write]
    split
    · rename_i h1
      exact (Memory.wf_cons _ _).mpr ⟨fun d hd => by simp at hd; simpa [← hd] using h1, h⟩
    · split
      · rename_i h1 h2
        exact (Memory.wf_cons _ _).mpr ⟨fun d hd => by simpa [h2] using hc d hd, hr⟩
      · refine (Memory.wf_cons _ _).mpr ⟨fun d hd => ?_, ih hr⟩
        rcases Memory.head_write _ _ _ _ hd with h' | h'
        · omega
        · exact hc d h'

@[simp] theorem Memory.read?_write_same (m : Memory) (a : Nat) (b : Byte) : (m.write a b).read? a = some b := by
  induction m with
  | nil => simp [Memory.write, Memory.read?]
  | cons c rest ih =>
    simp only [Memory.write]
    split
    · simp [Memory.read?]
    · split
      · simp [Memory.read?]
      · rename_i h1 h2
        simp only [Memory.read?, ih]
        rw [if_neg (fun h => h2 h.symm)]

theorem Memory.read?_write_other (m : Memory) (a a' : Nat) (b : Byte) (h : a' ≠ a) :
    (m.write a b).read? a' = m.read? a' := by
  induction m with
  | nil => simp [Memory.write, Memory.read?, Ne.symm h]
  | cons c rest ih =>
    simp only [Memory.write]
    split
    · simp [Memory.read?, Ne.symm h]
    · split
      · rename_i h1 h2
        simp [Memory.read?, Ne.symm h, ← h2]
      · simp [Memory.read?, ih]

theorem Memory.wf_ofBytes (a : Nat) (bs : List Byte) : Memory.wf (Memory.ofBytes a bs) = true := by
  induction bs generalizing a with
  | nil => rfl
  | cons b rest ih =>
    refine (Memory.wf_cons _ _).mpr ⟨fun d hd => ?_, ih (a + 1)⟩
    cases rest with
    | nil => simp [Memory.ofBytes] at hd
    | cons c r => simp [Memory.ofBytes] at hd; rw [← hd]; simp

theorem Memory.read?_ofBytes_below (a i : Nat) (bs : List Byte) (h : i < a) : (Memory.ofBytes a bs).read? i = none := by
  induction bs generalizing a with
  | nil => rfl
  | cons b rest ih =>
    simp only [Memory.ofBytes, Memory.read?]
    rw [if_neg (by omega), ih (a + 1) (by omega)]

/-- A read of a memory made of consecutive bytes. -/
theorem Memory.read?_ofBytes (a i : Nat) (bs : List Byte) : (Memory.ofBytes a bs).read? (a + i) = bs[i]? := by
  induction bs generalizing a i with
  | nil => rfl
  | cons b rest ih =>
    simp only [Memory.ofBytes, Memory.read?]
    cases i with
    | zero => simp
    | succ n =>
      rw [if_neg (by omega), show a + (n + 1) = (a + 1) + n by omega, ih]
      simp

@[simp] theorem Memory.read?_ofBytes_zero (i : Nat) (bs : List Byte) : (Memory.ofBytes 0 bs).read? i = bs[i]? := by
  simpa using Memory.read?_ofBytes 0 i bs

end Sys2Proof.Machine
end

