-- ==== Sys2Proof/Laws/State.lean ====
section
/-! SUPPORT. What each named operation leaves in each field of State: one lemma a field, so that no proof unfolds a record
update. -/

namespace Sys2Proof.Machine

variable (s : State)

/-! ### The sequencer's count -/

@[simp] theorem Seq.after_idle (n : Nat) : Seq.idle.after n = .idle := rfl
@[simp] theorem Seq.after_running (op : Instr) (pos k n : Nat) : (Seq.running op pos k).after n = .running op pos (k + n) := rfl
@[simp] theorem Seq.after_after (q : Seq) (m n : Nat) : (q.after m).after n = q.after (m + n) := by
  cases q <;> simp [Seq.after, Nat.add_assoc]
@[simp] theorem Seq.after_zero (q : Seq) : q.after 0 = q := by cases q <;> rfl
@[simp] theorem Seq.after_eq_idle (q : Seq) (n : Nat) : q.after n = .idle ↔ q = .idle := by cases q <;> simp
@[simp] theorem Seq.emitted_idle : Seq.idle.emitted = false := rfl
@[simp] theorem Seq.emitted_running (op : Instr) (pos k : Nat) : (Seq.running op pos k).emitted = decide (0 < k) := rfl

/-! ### setIdx -/

@[simp] theorem State.setIdx_pinCS (v : BitVec 29) : (s.setIdx v).pinCS = s.pinCS := rfl
@[simp] theorem State.setIdx_pinDC (v : BitVec 29) : (s.setIdx v).pinDC = s.pinDC := rfl
@[simp] theorem State.setIdx_pinRST (v : BitVec 29) : (s.setIdx v).pinRST = s.pinRST := rfl
@[simp] theorem State.setIdx_ps (v : BitVec 29) : (s.setIdx v).ps = s.ps := rfl
@[simp] theorem State.setIdx_session (v : BitVec 29) : (s.setIdx v).session = s.session := rfl
@[simp] theorem State.setIdx_err (v : BitVec 29) : (s.setIdx v).err = s.err := rfl
@[simp] theorem State.setIdx_errInfo (v : BitVec 29) : (s.setIdx v).errInfo = s.errInfo := rfl
@[simp] theorem State.setIdx_seq (v : BitVec 29) : (s.setIdx v).seq = s.seq := rfl
@[simp] theorem State.setIdx_sr (v : BitVec 29) : (s.setIdx v).sr = s.sr := rfl
@[simp] theorem State.setIdx_srBits (v : BitVec 29) : (s.setIdx v).srBits = s.srBits := rfl
@[simp] theorem State.setIdx_w (v : BitVec 29) : (s.setIdx v).w = s.w := rfl
@[simp] theorem State.setIdx_h (v : BitVec 29) : (s.setIdx v).h = s.h := rfl
@[simp] theorem State.setIdx_rot (v : BitVec 29) : (s.setIdx v).rot = s.rot := rfl
@[simp] theorem State.setIdx_color (v : BitVec 29) : (s.setIdx v).color = s.color := rfl
@[simp] theorem State.setIdx_rowb (v : BitVec 29) : (s.setIdx v).rowb = s.rowb := rfl
@[simp] theorem State.setIdx_len (v : BitVec 29) : (s.setIdx v).len = s.len := rfl
@[simp] theorem State.setIdx_lw (v : BitVec 29) : (s.setIdx v).lw = s.lw := rfl
@[simp] theorem State.setIdx_lh (v : BitVec 29) : (s.setIdx v).lh = s.lh := rfl
@[simp] theorem State.setIdx_fb (v : BitVec 29) : (s.setIdx v).fb = s.fb := rfl
@[simp] theorem State.setIdx_idx (v : BitVec 29) : (s.setIdx v).idx = v := rfl
@[simp] theorem State.setIdx_polls (v : BitVec 29) : (s.setIdx v).polls = s.polls := rfl
@[simp] theorem State.setIdx_T (v : BitVec 29) : (s.setIdx v).T = s.T := rfl
@[simp] theorem State.setIdx_panel (v : BitVec 29) : (s.setIdx v).panel = s.panel := rfl
@[simp] theorem State.setIdx_cfg (v : BitVec 29) : (s.setIdx v).cfg = s.cfg := rfl
@[simp] theorem State.setIdx_env (v : BitVec 29) : (s.setIdx v).env = s.env := rfl
@[simp] theorem State.setIdx_host (v : BitVec 29) : (s.setIdx v).host = s.host := rfl
@[simp] theorem State.setIdx_port (v : BitVec 29) : (s.setIdx v).port = s.port := rfl

/-! ### setPanel -/

@[simp] theorem State.setPanel_pinCS (p : Panel) : (s.setPanel p).pinCS = s.pinCS := rfl
@[simp] theorem State.setPanel_pinDC (p : Panel) : (s.setPanel p).pinDC = s.pinDC := rfl
@[simp] theorem State.setPanel_pinRST (p : Panel) : (s.setPanel p).pinRST = s.pinRST := rfl
@[simp] theorem State.setPanel_ps (p : Panel) : (s.setPanel p).ps = s.ps := rfl
@[simp] theorem State.setPanel_session (p : Panel) : (s.setPanel p).session = s.session := rfl
@[simp] theorem State.setPanel_err (p : Panel) : (s.setPanel p).err = s.err := rfl
@[simp] theorem State.setPanel_errInfo (p : Panel) : (s.setPanel p).errInfo = s.errInfo := rfl
@[simp] theorem State.setPanel_seq (p : Panel) : (s.setPanel p).seq = s.seq := rfl
@[simp] theorem State.setPanel_sr (p : Panel) : (s.setPanel p).sr = s.sr := rfl
@[simp] theorem State.setPanel_srBits (p : Panel) : (s.setPanel p).srBits = s.srBits := rfl
@[simp] theorem State.setPanel_w (p : Panel) : (s.setPanel p).w = s.w := rfl
@[simp] theorem State.setPanel_h (p : Panel) : (s.setPanel p).h = s.h := rfl
@[simp] theorem State.setPanel_rot (p : Panel) : (s.setPanel p).rot = s.rot := rfl
@[simp] theorem State.setPanel_color (p : Panel) : (s.setPanel p).color = s.color := rfl
@[simp] theorem State.setPanel_rowb (p : Panel) : (s.setPanel p).rowb = s.rowb := rfl
@[simp] theorem State.setPanel_len (p : Panel) : (s.setPanel p).len = s.len := rfl
@[simp] theorem State.setPanel_lw (p : Panel) : (s.setPanel p).lw = s.lw := rfl
@[simp] theorem State.setPanel_lh (p : Panel) : (s.setPanel p).lh = s.lh := rfl
@[simp] theorem State.setPanel_fb (p : Panel) : (s.setPanel p).fb = s.fb := rfl
@[simp] theorem State.setPanel_idx (p : Panel) : (s.setPanel p).idx = s.idx := rfl
@[simp] theorem State.setPanel_polls (p : Panel) : (s.setPanel p).polls = s.polls := rfl
@[simp] theorem State.setPanel_T (p : Panel) : (s.setPanel p).T = s.T := rfl
@[simp] theorem State.setPanel_panel (p : Panel) : (s.setPanel p).panel = p := rfl
@[simp] theorem State.setPanel_cfg (p : Panel) : (s.setPanel p).cfg = s.cfg := rfl
@[simp] theorem State.setPanel_env (p : Panel) : (s.setPanel p).env = s.env := rfl
@[simp] theorem State.setPanel_host (p : Panel) : (s.setPanel p).host = s.host := rfl
@[simp] theorem State.setPanel_port (p : Panel) : (s.setPanel p).port = s.port := rfl

/-! ### emit -/

@[simp] theorem State.emit_pinCS (e : Event) : (s.emit e).pinCS = s.pinCS := rfl
@[simp] theorem State.emit_pinDC (e : Event) : (s.emit e).pinDC = s.pinDC := rfl
@[simp] theorem State.emit_pinRST (e : Event) : (s.emit e).pinRST = s.pinRST := rfl
@[simp] theorem State.emit_ps (e : Event) : (s.emit e).ps = s.ps := rfl
@[simp] theorem State.emit_session (e : Event) : (s.emit e).session = s.session := rfl
@[simp] theorem State.emit_err (e : Event) : (s.emit e).err = s.err := rfl
@[simp] theorem State.emit_errInfo (e : Event) : (s.emit e).errInfo = s.errInfo := rfl
@[simp] theorem State.emit_seq (e : Event) : (s.emit e).seq = s.seq.after 1 := rfl
@[simp] theorem State.emit_sr (e : Event) : (s.emit e).sr = s.sr := rfl
@[simp] theorem State.emit_srBits (e : Event) : (s.emit e).srBits = s.srBits := rfl
@[simp] theorem State.emit_w (e : Event) : (s.emit e).w = s.w := rfl
@[simp] theorem State.emit_h (e : Event) : (s.emit e).h = s.h := rfl
@[simp] theorem State.emit_rot (e : Event) : (s.emit e).rot = s.rot := rfl
@[simp] theorem State.emit_color (e : Event) : (s.emit e).color = s.color := rfl
@[simp] theorem State.emit_rowb (e : Event) : (s.emit e).rowb = s.rowb := rfl
@[simp] theorem State.emit_len (e : Event) : (s.emit e).len = s.len := rfl
@[simp] theorem State.emit_lw (e : Event) : (s.emit e).lw = s.lw := rfl
@[simp] theorem State.emit_lh (e : Event) : (s.emit e).lh = s.lh := rfl
@[simp] theorem State.emit_fb (e : Event) : (s.emit e).fb = s.fb := rfl
@[simp] theorem State.emit_idx (e : Event) : (s.emit e).idx = s.idx := rfl
@[simp] theorem State.emit_polls (e : Event) : (s.emit e).polls = s.polls := rfl
@[simp] theorem State.emit_T (e : Event) : (s.emit e).T = s.T ++ [e] := rfl
@[simp] theorem State.emit_panel (e : Event) : (s.emit e).panel = s.panel := rfl
@[simp] theorem State.emit_cfg (e : Event) : (s.emit e).cfg = s.cfg := rfl
@[simp] theorem State.emit_env (e : Event) : (s.emit e).env = s.env := rfl
@[simp] theorem State.emit_host (e : Event) : (s.emit e).host = s.host := rfl
@[simp] theorem State.emit_port (e : Event) : (s.emit e).port = s.port := rfl

/-! ### drive -/

@[simp] theorem State.drive_ps (p : Pin) (l : Bool) : (s.drive p l).ps = s.ps := by cases p <;> rfl
@[simp] theorem State.drive_session (p : Pin) (l : Bool) : (s.drive p l).session = s.session := by cases p <;> rfl
@[simp] theorem State.drive_err (p : Pin) (l : Bool) : (s.drive p l).err = s.err := by cases p <;> rfl
@[simp] theorem State.drive_errInfo (p : Pin) (l : Bool) : (s.drive p l).errInfo = s.errInfo := by cases p <;> rfl
@[simp] theorem State.drive_seq (p : Pin) (l : Bool) : (s.drive p l).seq = s.seq.after 1 := by cases p <;> rfl
@[simp] theorem State.drive_sr (p : Pin) (l : Bool) : (s.drive p l).sr = s.sr := by cases p <;> rfl
@[simp] theorem State.drive_srBits (p : Pin) (l : Bool) : (s.drive p l).srBits = s.srBits := by cases p <;> rfl
@[simp] theorem State.drive_w (p : Pin) (l : Bool) : (s.drive p l).w = s.w := by cases p <;> rfl
@[simp] theorem State.drive_h (p : Pin) (l : Bool) : (s.drive p l).h = s.h := by cases p <;> rfl
@[simp] theorem State.drive_rot (p : Pin) (l : Bool) : (s.drive p l).rot = s.rot := by cases p <;> rfl
@[simp] theorem State.drive_color (p : Pin) (l : Bool) : (s.drive p l).color = s.color := by cases p <;> rfl
@[simp] theorem State.drive_rowb (p : Pin) (l : Bool) : (s.drive p l).rowb = s.rowb := by cases p <;> rfl
@[simp] theorem State.drive_len (p : Pin) (l : Bool) : (s.drive p l).len = s.len := by cases p <;> rfl
@[simp] theorem State.drive_lw (p : Pin) (l : Bool) : (s.drive p l).lw = s.lw := by cases p <;> rfl
@[simp] theorem State.drive_lh (p : Pin) (l : Bool) : (s.drive p l).lh = s.lh := by cases p <;> rfl
@[simp] theorem State.drive_fb (p : Pin) (l : Bool) : (s.drive p l).fb = s.fb := by cases p <;> rfl
@[simp] theorem State.drive_idx (p : Pin) (l : Bool) : (s.drive p l).idx = s.idx := by cases p <;> rfl
@[simp] theorem State.drive_polls (p : Pin) (l : Bool) : (s.drive p l).polls = s.polls := by cases p <;> rfl
@[simp] theorem State.drive_T (p : Pin) (l : Bool) : (s.drive p l).T = s.T ++ [.drv p l] := by cases p <;> rfl
@[simp] theorem State.drive_panel (p : Pin) (l : Bool) : (s.drive p l).panel = s.panel := by cases p <;> rfl
@[simp] theorem State.drive_cfg (p : Pin) (l : Bool) : (s.drive p l).cfg = s.cfg := by cases p <;> rfl
@[simp] theorem State.drive_env (p : Pin) (l : Bool) : (s.drive p l).env = s.env := by cases p <;> rfl
@[simp] theorem State.drive_host (p : Pin) (l : Bool) : (s.drive p l).host = s.host := by cases p <;> rfl
@[simp] theorem State.drive_port (p : Pin) (l : Bool) : (s.drive p l).port = s.port := by cases p <;> rfl
@[simp] theorem State.drive_dc (l : Bool) : (s.drive .dc l).pinDC = l := rfl
@[simp] theorem State.drive_dc_cs (l : Bool) : (s.drive .dc l).pinCS = s.pinCS := rfl
@[simp] theorem State.drive_dc_rst (l : Bool) : (s.drive .dc l).pinRST = s.pinRST := rfl
@[simp] theorem State.drive_cs (l : Bool) : (s.drive .cs l).pinCS = l := rfl
@[simp] theorem State.drive_cs_dc (l : Bool) : (s.drive .cs l).pinDC = s.pinDC := rfl
@[simp] theorem State.drive_cs_rst (l : Bool) : (s.drive .cs l).pinRST = s.pinRST := rfl
@[simp] theorem State.drive_rst (l : Bool) : (s.drive .rst l).pinRST = l := rfl
@[simp] theorem State.drive_rst_cs (l : Bool) : (s.drive .rst l).pinCS = s.pinCS := rfl
@[simp] theorem State.drive_rst_dc (l : Bool) : (s.drive .rst l).pinDC = s.pinDC := rfl

/-! ### delay -/

@[simp] theorem State.delay_pinCS (n : Nat) : (s.delay n).pinCS = s.pinCS := rfl
@[simp] theorem State.delay_pinDC (n : Nat) : (s.delay n).pinDC = s.pinDC := rfl
@[simp] theorem State.delay_pinRST (n : Nat) : (s.delay n).pinRST = s.pinRST := rfl
@[simp] theorem State.delay_ps (n : Nat) : (s.delay n).ps = s.ps := rfl
@[simp] theorem State.delay_session (n : Nat) : (s.delay n).session = s.session := rfl
@[simp] theorem State.delay_err (n : Nat) : (s.delay n).err = s.err := rfl
@[simp] theorem State.delay_errInfo (n : Nat) : (s.delay n).errInfo = s.errInfo := rfl
@[simp] theorem State.delay_seq (n : Nat) : (s.delay n).seq = s.seq.after 1 := rfl
@[simp] theorem State.delay_sr (n : Nat) : (s.delay n).sr = s.sr := rfl
@[simp] theorem State.delay_srBits (n : Nat) : (s.delay n).srBits = s.srBits := rfl
@[simp] theorem State.delay_w (n : Nat) : (s.delay n).w = s.w := rfl
@[simp] theorem State.delay_h (n : Nat) : (s.delay n).h = s.h := rfl
@[simp] theorem State.delay_rot (n : Nat) : (s.delay n).rot = s.rot := rfl
@[simp] theorem State.delay_color (n : Nat) : (s.delay n).color = s.color := rfl
@[simp] theorem State.delay_rowb (n : Nat) : (s.delay n).rowb = s.rowb := rfl
@[simp] theorem State.delay_len (n : Nat) : (s.delay n).len = s.len := rfl
@[simp] theorem State.delay_lw (n : Nat) : (s.delay n).lw = s.lw := rfl
@[simp] theorem State.delay_lh (n : Nat) : (s.delay n).lh = s.lh := rfl
@[simp] theorem State.delay_fb (n : Nat) : (s.delay n).fb = s.fb := rfl
@[simp] theorem State.delay_idx (n : Nat) : (s.delay n).idx = s.idx := rfl
@[simp] theorem State.delay_polls (n : Nat) : (s.delay n).polls = s.polls := rfl
@[simp] theorem State.delay_T (n : Nat) : (s.delay n).T = s.T ++ [.dly n] := rfl
@[simp] theorem State.delay_panel (n : Nat) : (s.delay n).panel = s.panel := rfl
@[simp] theorem State.delay_cfg (n : Nat) : (s.delay n).cfg = s.cfg := rfl
@[simp] theorem State.delay_env (n : Nat) : (s.delay n).env = s.env := rfl
@[simp] theorem State.delay_host (n : Nat) : (s.delay n).host = s.host := rfl
@[simp] theorem State.delay_port (n : Nat) : (s.delay n).port = s.port := rfl

/-! ### tx -/

@[simp] theorem State.tx_pinCS (b : Byte) : (s.tx b).pinCS = s.pinCS := rfl
@[simp] theorem State.tx_pinDC (b : Byte) : (s.tx b).pinDC = s.pinDC := rfl
@[simp] theorem State.tx_pinRST (b : Byte) : (s.tx b).pinRST = s.pinRST := rfl
@[simp] theorem State.tx_ps (b : Byte) : (s.tx b).ps = s.ps := rfl
@[simp] theorem State.tx_session (b : Byte) : (s.tx b).session = s.session := rfl
@[simp] theorem State.tx_err (b : Byte) : (s.tx b).err = s.err := rfl
@[simp] theorem State.tx_errInfo (b : Byte) : (s.tx b).errInfo = s.errInfo := rfl
@[simp] theorem State.tx_seq (b : Byte) : (s.tx b).seq = s.seq.after 1 := rfl
@[simp] theorem State.tx_sr (b : Byte) : (s.tx b).sr = b := rfl
@[simp] theorem State.tx_srBits (b : Byte) : (s.tx b).srBits = 0 := rfl
@[simp] theorem State.tx_w (b : Byte) : (s.tx b).w = s.w := rfl
@[simp] theorem State.tx_h (b : Byte) : (s.tx b).h = s.h := rfl
@[simp] theorem State.tx_rot (b : Byte) : (s.tx b).rot = s.rot := rfl
@[simp] theorem State.tx_color (b : Byte) : (s.tx b).color = s.color := rfl
@[simp] theorem State.tx_rowb (b : Byte) : (s.tx b).rowb = s.rowb := rfl
@[simp] theorem State.tx_len (b : Byte) : (s.tx b).len = s.len := rfl
@[simp] theorem State.tx_lw (b : Byte) : (s.tx b).lw = s.lw := rfl
@[simp] theorem State.tx_lh (b : Byte) : (s.tx b).lh = s.lh := rfl
@[simp] theorem State.tx_fb (b : Byte) : (s.tx b).fb = s.fb := rfl
@[simp] theorem State.tx_idx (b : Byte) : (s.tx b).idx = s.idx := rfl
@[simp] theorem State.tx_polls (b : Byte) : (s.tx b).polls = s.polls := rfl
@[simp] theorem State.tx_T (b : Byte) : (s.tx b).T = s.T ++ [.tx b] := rfl
@[simp] theorem State.tx_panel (b : Byte) : (s.tx b).panel = if s.nextTxFails then s.panel.missed else s.panel.receive s.cfg s.pinDC b := rfl
@[simp] theorem State.tx_cfg (b : Byte) : (s.tx b).cfg = s.cfg := rfl
@[simp] theorem State.tx_env (b : Byte) : (s.tx b).env = s.env := rfl
@[simp] theorem State.tx_host (b : Byte) : (s.tx b).host = s.host := rfl
@[simp] theorem State.tx_port (b : Byte) : (s.tx b).port = s.port := rfl

/-! ### sampleBusy -/

@[simp] theorem State.sampleBusy_pinCS : (s.sampleBusy).pinCS = s.pinCS := rfl
@[simp] theorem State.sampleBusy_pinDC : (s.sampleBusy).pinDC = s.pinDC := rfl
@[simp] theorem State.sampleBusy_pinRST : (s.sampleBusy).pinRST = s.pinRST := rfl
@[simp] theorem State.sampleBusy_ps : (s.sampleBusy).ps = s.ps := rfl
@[simp] theorem State.sampleBusy_session : (s.sampleBusy).session = s.session := rfl
@[simp] theorem State.sampleBusy_err : (s.sampleBusy).err = s.err := rfl
@[simp] theorem State.sampleBusy_errInfo : (s.sampleBusy).errInfo = s.errInfo := rfl
@[simp] theorem State.sampleBusy_seq : (s.sampleBusy).seq = s.seq.after 1 := rfl
@[simp] theorem State.sampleBusy_sr : (s.sampleBusy).sr = s.sr := rfl
@[simp] theorem State.sampleBusy_srBits : (s.sampleBusy).srBits = s.srBits := rfl
@[simp] theorem State.sampleBusy_w : (s.sampleBusy).w = s.w := rfl
@[simp] theorem State.sampleBusy_h : (s.sampleBusy).h = s.h := rfl
@[simp] theorem State.sampleBusy_rot : (s.sampleBusy).rot = s.rot := rfl
@[simp] theorem State.sampleBusy_color : (s.sampleBusy).color = s.color := rfl
@[simp] theorem State.sampleBusy_rowb : (s.sampleBusy).rowb = s.rowb := rfl
@[simp] theorem State.sampleBusy_len : (s.sampleBusy).len = s.len := rfl
@[simp] theorem State.sampleBusy_lw : (s.sampleBusy).lw = s.lw := rfl
@[simp] theorem State.sampleBusy_lh : (s.sampleBusy).lh = s.lh := rfl
@[simp] theorem State.sampleBusy_fb : (s.sampleBusy).fb = s.fb := rfl
@[simp] theorem State.sampleBusy_idx : (s.sampleBusy).idx = s.idx := rfl
@[simp] theorem State.sampleBusy_polls : (s.sampleBusy).polls = s.polls := rfl
@[simp] theorem State.sampleBusy_T : (s.sampleBusy).T = s.T ++ [.smp s.env.busyAnswer] := rfl
@[simp] theorem State.sampleBusy_panel : (s.sampleBusy).panel = s.panel.sampled s.env.busyAnswer := rfl
@[simp] theorem State.sampleBusy_cfg : (s.sampleBusy).cfg = s.cfg := rfl
@[simp] theorem State.sampleBusy_env : (s.sampleBusy).env = s.env.afterBusy := rfl
@[simp] theorem State.sampleBusy_host : (s.sampleBusy).host = s.host := rfl
@[simp] theorem State.sampleBusy_port : (s.sampleBusy).port = s.port := rfl

/-! ### accept -/

@[simp] theorem State.accept_pinCS (op : Instr) : (s.accept op).pinCS = s.pinCS := rfl
@[simp] theorem State.accept_pinDC (op : Instr) : (s.accept op).pinDC = s.pinDC := rfl
@[simp] theorem State.accept_pinRST (op : Instr) : (s.accept op).pinRST = s.pinRST := rfl
@[simp] theorem State.accept_ps (op : Instr) : (s.accept op).ps = s.ps := rfl
@[simp] theorem State.accept_session (op : Instr) : (s.accept op).session = s.session := rfl
@[simp] theorem State.accept_err (op : Instr) : (s.accept op).err = .noError := rfl
@[simp] theorem State.accept_errInfo (op : Instr) : (s.accept op).errInfo = 0 := rfl
@[simp] theorem State.accept_seq (op : Instr) : (s.accept op).seq = .running op 0 0 := rfl
@[simp] theorem State.accept_sr (op : Instr) : (s.accept op).sr = s.sr := rfl
@[simp] theorem State.accept_srBits (op : Instr) : (s.accept op).srBits = s.srBits := rfl
@[simp] theorem State.accept_w (op : Instr) : (s.accept op).w = s.w := rfl
@[simp] theorem State.accept_h (op : Instr) : (s.accept op).h = s.h := rfl
@[simp] theorem State.accept_rot (op : Instr) : (s.accept op).rot = s.rot := rfl
@[simp] theorem State.accept_color (op : Instr) : (s.accept op).color = s.color := rfl
@[simp] theorem State.accept_rowb (op : Instr) : (s.accept op).rowb = s.rowb := rfl
@[simp] theorem State.accept_len (op : Instr) : (s.accept op).len = s.len := rfl
@[simp] theorem State.accept_lw (op : Instr) : (s.accept op).lw = s.lw := rfl
@[simp] theorem State.accept_lh (op : Instr) : (s.accept op).lh = s.lh := rfl
@[simp] theorem State.accept_fb (op : Instr) : (s.accept op).fb = s.fb := rfl
@[simp] theorem State.accept_idx (op : Instr) : (s.accept op).idx = s.idx := rfl
@[simp] theorem State.accept_polls (op : Instr) : (s.accept op).polls = s.polls := rfl
@[simp] theorem State.accept_T (op : Instr) : (s.accept op).T = s.T := rfl
@[simp] theorem State.accept_panel (op : Instr) : (s.accept op).panel = s.panel := rfl
@[simp] theorem State.accept_cfg (op : Instr) : (s.accept op).cfg = s.cfg := rfl
@[simp] theorem State.accept_env (op : Instr) : (s.accept op).env = s.env := rfl
@[simp] theorem State.accept_host (op : Instr) : (s.accept op).host = s.host := rfl
@[simp] theorem State.accept_port (op : Instr) : (s.accept op).port = s.port := rfl

/-! ### finish -/

@[simp] theorem Seq.isInit_idle : Seq.idle.isInit = false := rfl
@[simp] theorem Seq.isInit_running (op : Instr) (pos k : Nat) : (Seq.running op pos k).isInit = decide (op = .init) := rfl

@[simp] theorem State.finish_pinCS : (s.finish).pinCS = s.pinCS := rfl
@[simp] theorem State.finish_pinDC : (s.finish).pinDC = s.pinDC := rfl
@[simp] theorem State.finish_pinRST : (s.finish).pinRST = s.pinRST := rfl
@[simp] theorem State.finish_ps : (s.finish).ps = s.ps := rfl
@[simp] theorem State.finish_session : (s.finish).session = s.session := rfl
@[simp] theorem State.finish_err : (s.finish).err = s.err := rfl
@[simp] theorem State.finish_errInfo : (s.finish).errInfo = s.errInfo := rfl
@[simp] theorem State.finish_seq : (s.finish).seq = .idle := rfl
@[simp] theorem State.finish_sr : (s.finish).sr = s.sr := rfl
@[simp] theorem State.finish_srBits : (s.finish).srBits = s.srBits := rfl
@[simp] theorem State.finish_w : (s.finish).w = s.w := rfl
@[simp] theorem State.finish_h : (s.finish).h = s.h := rfl
@[simp] theorem State.finish_rot : (s.finish).rot = s.rot := rfl
@[simp] theorem State.finish_color : (s.finish).color = s.color := rfl
@[simp] theorem State.finish_rowb : (s.finish).rowb = s.rowb := rfl
@[simp] theorem State.finish_len : (s.finish).len = s.len := rfl
@[simp] theorem State.finish_lw : (s.finish).lw = s.lw := rfl
@[simp] theorem State.finish_lh : (s.finish).lh = s.lh := rfl
@[simp] theorem State.finish_fb : (s.finish).fb = [] := rfl
@[simp] theorem State.finish_idx : (s.finish).idx = s.idx := rfl
@[simp] theorem State.finish_polls : (s.finish).polls = s.polls := rfl
@[simp] theorem State.finish_T : (s.finish).T = s.T := rfl
@[simp] theorem State.finish_panel : (s.finish).panel = if s.seq.isInit then s.panel.recovered else s.panel := rfl
@[simp] theorem State.finish_cfg : (s.finish).cfg = s.cfg := rfl
@[simp] theorem State.finish_env : (s.finish).env = s.env := rfl
@[simp] theorem State.finish_host : (s.finish).host = s.host := rfl
@[simp] theorem State.finish_port : (s.finish).port = s.port := rfl

/-! ### raise -/

@[simp] theorem State.raise_pinCS (e : ErrorCode) (info : Nat) : (s.raise e info).pinCS = s.pinCS := rfl
@[simp] theorem State.raise_pinDC (e : ErrorCode) (info : Nat) : (s.raise e info).pinDC = s.pinDC := rfl
@[simp] theorem State.raise_pinRST (e : ErrorCode) (info : Nat) : (s.raise e info).pinRST = s.pinRST := rfl
@[simp] theorem State.raise_ps (e : ErrorCode) (info : Nat) : (s.raise e info).ps = if s.seq.emitted then .faulted else s.ps := rfl
@[simp] theorem State.raise_session (e : ErrorCode) (info : Nat) : (s.raise e info).session = s.session := rfl
@[simp] theorem State.raise_err (e : ErrorCode) (info : Nat) : (s.raise e info).err = e := rfl
@[simp] theorem State.raise_errInfo (e : ErrorCode) (info : Nat) : (s.raise e info).errInfo = info := rfl
@[simp] theorem State.raise_seq (e : ErrorCode) (info : Nat) : (s.raise e info).seq = .idle := rfl
@[simp] theorem State.raise_sr (e : ErrorCode) (info : Nat) : (s.raise e info).sr = s.sr := rfl
@[simp] theorem State.raise_srBits (e : ErrorCode) (info : Nat) : (s.raise e info).srBits = s.srBits := rfl
@[simp] theorem State.raise_w (e : ErrorCode) (info : Nat) : (s.raise e info).w = s.w := rfl
@[simp] theorem State.raise_h (e : ErrorCode) (info : Nat) : (s.raise e info).h = s.h := rfl
@[simp] theorem State.raise_rot (e : ErrorCode) (info : Nat) : (s.raise e info).rot = s.rot := rfl
@[simp] theorem State.raise_color (e : ErrorCode) (info : Nat) : (s.raise e info).color = s.color := rfl
@[simp] theorem State.raise_rowb (e : ErrorCode) (info : Nat) : (s.raise e info).rowb = s.rowb := rfl
@[simp] theorem State.raise_len (e : ErrorCode) (info : Nat) : (s.raise e info).len = s.len := rfl
@[simp] theorem State.raise_lw (e : ErrorCode) (info : Nat) : (s.raise e info).lw = s.lw := rfl
@[simp] theorem State.raise_lh (e : ErrorCode) (info : Nat) : (s.raise e info).lh = s.lh := rfl
@[simp] theorem State.raise_fb (e : ErrorCode) (info : Nat) : (s.raise e info).fb = [] := rfl
@[simp] theorem State.raise_idx (e : ErrorCode) (info : Nat) : (s.raise e info).idx = s.idx := rfl
@[simp] theorem State.raise_polls (e : ErrorCode) (info : Nat) : (s.raise e info).polls = s.polls := rfl
@[simp] theorem State.raise_T (e : ErrorCode) (info : Nat) : (s.raise e info).T = s.T := rfl
@[simp] theorem State.raise_panel (e : ErrorCode) (info : Nat) : (s.raise e info).panel = if s.seq.emitted then s.panel.lose else s.panel := rfl
@[simp] theorem State.raise_cfg (e : ErrorCode) (info : Nat) : (s.raise e info).cfg = s.cfg := rfl
@[simp] theorem State.raise_env (e : ErrorCode) (info : Nat) : (s.raise e info).env = s.env := rfl
@[simp] theorem State.raise_host (e : ErrorCode) (info : Nat) : (s.raise e info).host = s.host := rfl
@[simp] theorem State.raise_port (e : ErrorCode) (info : Nat) : (s.raise e info).port = s.port := rfl

/-! ### setPS -/

@[simp] theorem State.setPS_pinCS (p : PanelState) : (s.setPS p).pinCS = s.pinCS := rfl
@[simp] theorem State.setPS_pinDC (p : PanelState) : (s.setPS p).pinDC = s.pinDC := rfl
@[simp] theorem State.setPS_pinRST (p : PanelState) : (s.setPS p).pinRST = s.pinRST := rfl
@[simp] theorem State.setPS_ps (p : PanelState) : (s.setPS p).ps = p := rfl
@[simp] theorem State.setPS_session (p : PanelState) : (s.setPS p).session = s.session := rfl
@[simp] theorem State.setPS_err (p : PanelState) : (s.setPS p).err = s.err := rfl
@[simp] theorem State.setPS_errInfo (p : PanelState) : (s.setPS p).errInfo = s.errInfo := rfl
@[simp] theorem State.setPS_seq (p : PanelState) : (s.setPS p).seq = s.seq := rfl
@[simp] theorem State.setPS_sr (p : PanelState) : (s.setPS p).sr = s.sr := rfl
@[simp] theorem State.setPS_srBits (p : PanelState) : (s.setPS p).srBits = s.srBits := rfl
@[simp] theorem State.setPS_w (p : PanelState) : (s.setPS p).w = s.w := rfl
@[simp] theorem State.setPS_h (p : PanelState) : (s.setPS p).h = s.h := rfl
@[simp] theorem State.setPS_rot (p : PanelState) : (s.setPS p).rot = s.rot := rfl
@[simp] theorem State.setPS_color (p : PanelState) : (s.setPS p).color = s.color := rfl
@[simp] theorem State.setPS_rowb (p : PanelState) : (s.setPS p).rowb = s.rowb := rfl
@[simp] theorem State.setPS_len (p : PanelState) : (s.setPS p).len = s.len := rfl
@[simp] theorem State.setPS_lw (p : PanelState) : (s.setPS p).lw = s.lw := rfl
@[simp] theorem State.setPS_lh (p : PanelState) : (s.setPS p).lh = s.lh := rfl
@[simp] theorem State.setPS_fb (p : PanelState) : (s.setPS p).fb = s.fb := rfl
@[simp] theorem State.setPS_idx (p : PanelState) : (s.setPS p).idx = s.idx := rfl
@[simp] theorem State.setPS_polls (p : PanelState) : (s.setPS p).polls = s.polls := rfl
@[simp] theorem State.setPS_T (p : PanelState) : (s.setPS p).T = s.T := rfl
@[simp] theorem State.setPS_panel (p : PanelState) : (s.setPS p).panel = s.panel := rfl
@[simp] theorem State.setPS_cfg (p : PanelState) : (s.setPS p).cfg = s.cfg := rfl
@[simp] theorem State.setPS_env (p : PanelState) : (s.setPS p).env = s.env := rfl
@[simp] theorem State.setPS_host (p : PanelState) : (s.setPS p).host = s.host := rfl
@[simp] theorem State.setPS_port (p : PanelState) : (s.setPS p).port = s.port := rfl

/-! ### buildBuffer -/

@[simp] theorem State.buildBuffer_pinCS (bw bh : Coord) (r : Rotation) (c : Byte) : (s.buildBuffer bw bh r c).pinCS = s.pinCS := rfl
@[simp] theorem State.buildBuffer_pinDC (bw bh : Coord) (r : Rotation) (c : Byte) : (s.buildBuffer bw bh r c).pinDC = s.pinDC := rfl
@[simp] theorem State.buildBuffer_pinRST (bw bh : Coord) (r : Rotation) (c : Byte) : (s.buildBuffer bw bh r c).pinRST = s.pinRST := rfl
@[simp] theorem State.buildBuffer_ps (bw bh : Coord) (r : Rotation) (c : Byte) : (s.buildBuffer bw bh r c).ps = s.ps := rfl
@[simp] theorem State.buildBuffer_session (bw bh : Coord) (r : Rotation) (c : Byte) : (s.buildBuffer bw bh r c).session = s.session := rfl
@[simp] theorem State.buildBuffer_err (bw bh : Coord) (r : Rotation) (c : Byte) : (s.buildBuffer bw bh r c).err = s.err := rfl
@[simp] theorem State.buildBuffer_errInfo (bw bh : Coord) (r : Rotation) (c : Byte) : (s.buildBuffer bw bh r c).errInfo = s.errInfo := rfl
@[simp] theorem State.buildBuffer_seq (bw bh : Coord) (r : Rotation) (c : Byte) : (s.buildBuffer bw bh r c).seq = s.seq := rfl
@[simp] theorem State.buildBuffer_sr (bw bh : Coord) (r : Rotation) (c : Byte) : (s.buildBuffer bw bh r c).sr = s.sr := rfl
@[simp] theorem State.buildBuffer_srBits (bw bh : Coord) (r : Rotation) (c : Byte) : (s.buildBuffer bw bh r c).srBits = s.srBits := rfl
@[simp] theorem State.buildBuffer_w (bw bh : Coord) (r : Rotation) (c : Byte) : (s.buildBuffer bw bh r c).w = bw := rfl
@[simp] theorem State.buildBuffer_h (bw bh : Coord) (r : Rotation) (c : Byte) : (s.buildBuffer bw bh r c).h = bh := rfl
@[simp] theorem State.buildBuffer_rot (bw bh : Coord) (r : Rotation) (c : Byte) : (s.buildBuffer bw bh r c).rot = r := rfl
@[simp] theorem State.buildBuffer_color (bw bh : Coord) (r : Rotation) (c : Byte) : (s.buildBuffer bw bh r c).color = c := rfl
@[simp] theorem State.buildBuffer_rowb (bw bh : Coord) (r : Rotation) (c : Byte) : (s.buildBuffer bw bh r c).rowb = rowBytes bw := rfl
@[simp] theorem State.buildBuffer_len (bw bh : Coord) (r : Rotation) (c : Byte) : (s.buildBuffer bw bh r c).len = bufferLen (rowBytes bw) bh := rfl
@[simp] theorem State.buildBuffer_lw (bw bh : Coord) (r : Rotation) (c : Byte) : (s.buildBuffer bw bh r c).lw = logicalW r bw bh := rfl
@[simp] theorem State.buildBuffer_lh (bw bh : Coord) (r : Rotation) (c : Byte) : (s.buildBuffer bw bh r c).lh = logicalH r bw bh := rfl
@[simp] theorem State.buildBuffer_fb (bw bh : Coord) (r : Rotation) (c : Byte) : (s.buildBuffer bw bh r c).fb = Memory.ofBytes 0 (List.replicate (bufferLen (rowBytes bw) bh).toNat c) := rfl
@[simp] theorem State.buildBuffer_idx (bw bh : Coord) (r : Rotation) (c : Byte) : (s.buildBuffer bw bh r c).idx = s.idx := rfl
@[simp] theorem State.buildBuffer_polls (bw bh : Coord) (r : Rotation) (c : Byte) : (s.buildBuffer bw bh r c).polls = s.polls := rfl
@[simp] theorem State.buildBuffer_T (bw bh : Coord) (r : Rotation) (c : Byte) : (s.buildBuffer bw bh r c).T = s.T := rfl
@[simp] theorem State.buildBuffer_panel (bw bh : Coord) (r : Rotation) (c : Byte) : (s.buildBuffer bw bh r c).panel = s.panel := rfl
@[simp] theorem State.buildBuffer_cfg (bw bh : Coord) (r : Rotation) (c : Byte) : (s.buildBuffer bw bh r c).cfg = s.cfg := rfl
@[simp] theorem State.buildBuffer_env (bw bh : Coord) (r : Rotation) (c : Byte) : (s.buildBuffer bw bh r c).env = s.env := rfl
@[simp] theorem State.buildBuffer_host (bw bh : Coord) (r : Rotation) (c : Byte) : (s.buildBuffer bw bh r c).host = s.host := rfl
@[simp] theorem State.buildBuffer_port (bw bh : Coord) (r : Rotation) (c : Byte) : (s.buildBuffer bw bh r c).port = s.port := rfl

/-! ### loadImage -/

@[simp] theorem State.loadImage_pinCS : (s.loadImage).pinCS = s.pinCS := rfl
@[simp] theorem State.loadImage_pinDC : (s.loadImage).pinDC = s.pinDC := rfl
@[simp] theorem State.loadImage_pinRST : (s.loadImage).pinRST = s.pinRST := rfl
@[simp] theorem State.loadImage_ps : (s.loadImage).ps = s.ps := rfl
@[simp] theorem State.loadImage_session : (s.loadImage).session = s.session := rfl
@[simp] theorem State.loadImage_err : (s.loadImage).err = s.err := rfl
@[simp] theorem State.loadImage_errInfo : (s.loadImage).errInfo = s.errInfo := rfl
@[simp] theorem State.loadImage_seq : (s.loadImage).seq = s.seq := rfl
@[simp] theorem State.loadImage_sr : (s.loadImage).sr = s.sr := rfl
@[simp] theorem State.loadImage_srBits : (s.loadImage).srBits = s.srBits := rfl
@[simp] theorem State.loadImage_w : (s.loadImage).w = s.w := rfl
@[simp] theorem State.loadImage_h : (s.loadImage).h = s.h := rfl
@[simp] theorem State.loadImage_rot : (s.loadImage).rot = s.rot := rfl
@[simp] theorem State.loadImage_color : (s.loadImage).color = s.color := rfl
@[simp] theorem State.loadImage_rowb : (s.loadImage).rowb = s.rowb := rfl
@[simp] theorem State.loadImage_len : (s.loadImage).len = s.len := rfl
@[simp] theorem State.loadImage_lw : (s.loadImage).lw = s.lw := rfl
@[simp] theorem State.loadImage_lh : (s.loadImage).lh = s.lh := rfl
@[simp] theorem State.loadImage_fb : (s.loadImage).fb = Memory.ofBytes 0 (s.port.take s.len.toNat) := rfl
@[simp] theorem State.loadImage_idx : (s.loadImage).idx = s.idx := rfl
@[simp] theorem State.loadImage_polls : (s.loadImage).polls = s.polls := rfl
@[simp] theorem State.loadImage_T : (s.loadImage).T = s.T := rfl
@[simp] theorem State.loadImage_panel : (s.loadImage).panel = s.panel := rfl
@[simp] theorem State.loadImage_cfg : (s.loadImage).cfg = s.cfg := rfl
@[simp] theorem State.loadImage_env : (s.loadImage).env = s.env := rfl
@[simp] theorem State.loadImage_host : (s.loadImage).host = s.host := rfl
@[simp] theorem State.loadImage_port : (s.loadImage).port = [] := rfl

/-! ### resetPulse -/

@[simp] theorem State.resetPulse_pinCS : (s.resetPulse).pinCS = s.pinCS := by simp [State.resetPulse]
@[simp] theorem State.resetPulse_pinDC : (s.resetPulse).pinDC = s.pinDC := by simp [State.resetPulse]
@[simp] theorem State.resetPulse_pinRST : (s.resetPulse).pinRST = true := by simp [State.resetPulse]
@[simp] theorem State.resetPulse_ps : (s.resetPulse).ps = .resetting := by simp [State.resetPulse]
@[simp] theorem State.resetPulse_session : (s.resetPulse).session = s.session := by simp [State.resetPulse]
@[simp] theorem State.resetPulse_err : (s.resetPulse).err = s.err := by simp [State.resetPulse]
@[simp] theorem State.resetPulse_errInfo : (s.resetPulse).errInfo = s.errInfo := by simp [State.resetPulse]
@[simp] theorem State.resetPulse_seq : (s.resetPulse).seq = s.seq.after 6 := by simp [State.resetPulse]
@[simp] theorem State.resetPulse_sr : (s.resetPulse).sr = s.sr := by simp [State.resetPulse]
@[simp] theorem State.resetPulse_srBits : (s.resetPulse).srBits = s.srBits := by simp [State.resetPulse]
@[simp] theorem State.resetPulse_w : (s.resetPulse).w = s.w := by simp [State.resetPulse]
@[simp] theorem State.resetPulse_h : (s.resetPulse).h = s.h := by simp [State.resetPulse]
@[simp] theorem State.resetPulse_rot : (s.resetPulse).rot = s.rot := by simp [State.resetPulse]
@[simp] theorem State.resetPulse_color : (s.resetPulse).color = s.color := by simp [State.resetPulse]
@[simp] theorem State.resetPulse_rowb : (s.resetPulse).rowb = s.rowb := by simp [State.resetPulse]
@[simp] theorem State.resetPulse_len : (s.resetPulse).len = s.len := by simp [State.resetPulse]
@[simp] theorem State.resetPulse_lw : (s.resetPulse).lw = s.lw := by simp [State.resetPulse]
@[simp] theorem State.resetPulse_lh : (s.resetPulse).lh = s.lh := by simp [State.resetPulse]
@[simp] theorem State.resetPulse_fb : (s.resetPulse).fb = s.fb := by simp [State.resetPulse]
@[simp] theorem State.resetPulse_idx : (s.resetPulse).idx = s.idx := by simp [State.resetPulse]
@[simp] theorem State.resetPulse_polls : (s.resetPulse).polls = s.polls := by simp [State.resetPulse]
@[simp] theorem State.resetPulse_T : (s.resetPulse).T = s.T ++ [.drv .rst true, .dly 20, .drv .rst false, .dly 2, .drv .rst true, .dly 20] := by simp [State.resetPulse, Config.tRstHigh1, Config.tRstLow, Config.tRstHigh2, List.append_assoc]
@[simp] theorem State.resetPulse_panel : (s.resetPulse).panel = s.panel.latchReset := by simp [State.resetPulse]
@[simp] theorem State.resetPulse_cfg : (s.resetPulse).cfg = s.cfg := by simp [State.resetPulse]
@[simp] theorem State.resetPulse_env : (s.resetPulse).env = s.env := by simp [State.resetPulse]
@[simp] theorem State.resetPulse_host : (s.resetPulse).host = s.host := by simp [State.resetPulse]
@[simp] theorem State.resetPulse_port : (s.resetPulse).port = s.port := by simp [State.resetPulse]

/-! ### startWait -/

@[simp] theorem State.startWait_pinCS : (s.startWait).pinCS = s.pinCS := rfl
@[simp] theorem State.startWait_pinDC : (s.startWait).pinDC = s.pinDC := rfl
@[simp] theorem State.startWait_pinRST : (s.startWait).pinRST = s.pinRST := rfl
@[simp] theorem State.startWait_ps : (s.startWait).ps = .awaitingIdle := rfl
@[simp] theorem State.startWait_session : (s.startWait).session = s.session := rfl
@[simp] theorem State.startWait_err : (s.startWait).err = s.err := rfl
@[simp] theorem State.startWait_errInfo : (s.startWait).errInfo = s.errInfo := rfl
@[simp] theorem State.startWait_seq : (s.startWait).seq = s.seq := rfl
@[simp] theorem State.startWait_sr : (s.startWait).sr = s.sr := rfl
@[simp] theorem State.startWait_srBits : (s.startWait).srBits = s.srBits := rfl
@[simp] theorem State.startWait_w : (s.startWait).w = s.w := rfl
@[simp] theorem State.startWait_h : (s.startWait).h = s.h := rfl
@[simp] theorem State.startWait_rot : (s.startWait).rot = s.rot := rfl
@[simp] theorem State.startWait_color : (s.startWait).color = s.color := rfl
@[simp] theorem State.startWait_rowb : (s.startWait).rowb = s.rowb := rfl
@[simp] theorem State.startWait_len : (s.startWait).len = s.len := rfl
@[simp] theorem State.startWait_lw : (s.startWait).lw = s.lw := rfl
@[simp] theorem State.startWait_lh : (s.startWait).lh = s.lh := rfl
@[simp] theorem State.startWait_fb : (s.startWait).fb = s.fb := rfl
@[simp] theorem State.startWait_idx : (s.startWait).idx = s.idx := rfl
@[simp] theorem State.startWait_polls : (s.startWait).polls = 0 := rfl
@[simp] theorem State.startWait_T : (s.startWait).T = s.T := rfl
@[simp] theorem State.startWait_panel : (s.startWait).panel = s.panel := rfl
@[simp] theorem State.startWait_cfg : (s.startWait).cfg = s.cfg := rfl
@[simp] theorem State.startWait_env : (s.startWait).env = s.env := rfl
@[simp] theorem State.startWait_host : (s.startWait).host = s.host := rfl
@[simp] theorem State.startWait_port : (s.startWait).port = s.port := rfl

/-! ### pollOnce -/

@[simp] theorem State.pollOnce_pinCS : (s.pollOnce).pinCS = s.pinCS := rfl
@[simp] theorem State.pollOnce_pinDC : (s.pollOnce).pinDC = s.pinDC := rfl
@[simp] theorem State.pollOnce_pinRST : (s.pollOnce).pinRST = s.pinRST := rfl
@[simp] theorem State.pollOnce_ps : (s.pollOnce).ps = s.ps := rfl
@[simp] theorem State.pollOnce_session : (s.pollOnce).session = s.session := rfl
@[simp] theorem State.pollOnce_err : (s.pollOnce).err = s.err := rfl
@[simp] theorem State.pollOnce_errInfo : (s.pollOnce).errInfo = s.errInfo := rfl
@[simp] theorem State.pollOnce_seq : (s.pollOnce).seq = s.seq.after 1 := rfl
@[simp] theorem State.pollOnce_sr : (s.pollOnce).sr = s.sr := rfl
@[simp] theorem State.pollOnce_srBits : (s.pollOnce).srBits = s.srBits := rfl
@[simp] theorem State.pollOnce_w : (s.pollOnce).w = s.w := rfl
@[simp] theorem State.pollOnce_h : (s.pollOnce).h = s.h := rfl
@[simp] theorem State.pollOnce_rot : (s.pollOnce).rot = s.rot := rfl
@[simp] theorem State.pollOnce_color : (s.pollOnce).color = s.color := rfl
@[simp] theorem State.pollOnce_rowb : (s.pollOnce).rowb = s.rowb := rfl
@[simp] theorem State.pollOnce_len : (s.pollOnce).len = s.len := rfl
@[simp] theorem State.pollOnce_lw : (s.pollOnce).lw = s.lw := rfl
@[simp] theorem State.pollOnce_lh : (s.pollOnce).lh = s.lh := rfl
@[simp] theorem State.pollOnce_fb : (s.pollOnce).fb = s.fb := rfl
@[simp] theorem State.pollOnce_idx : (s.pollOnce).idx = s.idx := rfl
@[simp] theorem State.pollOnce_polls : (s.pollOnce).polls = s.polls + 1 := rfl
@[simp] theorem State.pollOnce_T : (s.pollOnce).T = s.T ++ [.smp s.env.busyAnswer] := rfl
@[simp] theorem State.pollOnce_panel : (s.pollOnce).panel = s.panel.sampled s.env.busyAnswer := rfl
@[simp] theorem State.pollOnce_cfg : (s.pollOnce).cfg = s.cfg := rfl
@[simp] theorem State.pollOnce_env : (s.pollOnce).env = s.env.afterBusy := rfl
@[simp] theorem State.pollOnce_host : (s.pollOnce).host = s.host := rfl
@[simp] theorem State.pollOnce_port : (s.pollOnce).port = s.port := rfl

/-! ### consultTransport -/

@[simp] theorem State.consultTransport_pinCS : (s.consultTransport).pinCS = s.pinCS := rfl
@[simp] theorem State.consultTransport_pinDC : (s.consultTransport).pinDC = s.pinDC := rfl
@[simp] theorem State.consultTransport_pinRST : (s.consultTransport).pinRST = s.pinRST := rfl
@[simp] theorem State.consultTransport_ps : (s.consultTransport).ps = s.ps := rfl
@[simp] theorem State.consultTransport_session : (s.consultTransport).session = s.session := rfl
@[simp] theorem State.consultTransport_err : (s.consultTransport).err = s.err := rfl
@[simp] theorem State.consultTransport_errInfo : (s.consultTransport).errInfo = s.errInfo := rfl
@[simp] theorem State.consultTransport_seq : (s.consultTransport).seq = s.seq := rfl
@[simp] theorem State.consultTransport_sr : (s.consultTransport).sr = s.sr := rfl
@[simp] theorem State.consultTransport_srBits : (s.consultTransport).srBits = s.srBits := rfl
@[simp] theorem State.consultTransport_w : (s.consultTransport).w = s.w := rfl
@[simp] theorem State.consultTransport_h : (s.consultTransport).h = s.h := rfl
@[simp] theorem State.consultTransport_rot : (s.consultTransport).rot = s.rot := rfl
@[simp] theorem State.consultTransport_color : (s.consultTransport).color = s.color := rfl
@[simp] theorem State.consultTransport_rowb : (s.consultTransport).rowb = s.rowb := rfl
@[simp] theorem State.consultTransport_len : (s.consultTransport).len = s.len := rfl
@[simp] theorem State.consultTransport_lw : (s.consultTransport).lw = s.lw := rfl
@[simp] theorem State.consultTransport_lh : (s.consultTransport).lh = s.lh := rfl
@[simp] theorem State.consultTransport_fb : (s.consultTransport).fb = s.fb := rfl
@[simp] theorem State.consultTransport_idx : (s.consultTransport).idx = s.idx := rfl
@[simp] theorem State.consultTransport_polls : (s.consultTransport).polls = s.polls := rfl
@[simp] theorem State.consultTransport_T : (s.consultTransport).T = s.T := rfl
@[simp] theorem State.consultTransport_panel : (s.consultTransport).panel = s.panel := rfl
@[simp] theorem State.consultTransport_cfg : (s.consultTransport).cfg = s.cfg := rfl
@[simp] theorem State.consultTransport_env : (s.consultTransport).env = s.env.afterTransport := rfl
@[simp] theorem State.consultTransport_host : (s.consultTransport).host = s.host := rfl
@[simp] theorem State.consultTransport_port : (s.consultTransport).port = s.port := rfl

/-! ### present -/

@[simp] theorem State.present_pinCS (r : HostRequest) (rest : List HostRequest) : (s.present r rest).pinCS = s.pinCS := rfl
@[simp] theorem State.present_pinDC (r : HostRequest) (rest : List HostRequest) : (s.present r rest).pinDC = s.pinDC := rfl
@[simp] theorem State.present_pinRST (r : HostRequest) (rest : List HostRequest) : (s.present r rest).pinRST = s.pinRST := rfl
@[simp] theorem State.present_ps (r : HostRequest) (rest : List HostRequest) : (s.present r rest).ps = s.ps := rfl
@[simp] theorem State.present_session (r : HostRequest) (rest : List HostRequest) : (s.present r rest).session = s.session := rfl
@[simp] theorem State.present_err (r : HostRequest) (rest : List HostRequest) : (s.present r rest).err = s.err := rfl
@[simp] theorem State.present_errInfo (r : HostRequest) (rest : List HostRequest) : (s.present r rest).errInfo = s.errInfo := rfl
@[simp] theorem State.present_seq (r : HostRequest) (rest : List HostRequest) : (s.present r rest).seq = s.seq := rfl
@[simp] theorem State.present_sr (r : HostRequest) (rest : List HostRequest) : (s.present r rest).sr = s.sr := rfl
@[simp] theorem State.present_srBits (r : HostRequest) (rest : List HostRequest) : (s.present r rest).srBits = s.srBits := rfl
@[simp] theorem State.present_w (r : HostRequest) (rest : List HostRequest) : (s.present r rest).w = s.w := rfl
@[simp] theorem State.present_h (r : HostRequest) (rest : List HostRequest) : (s.present r rest).h = s.h := rfl
@[simp] theorem State.present_rot (r : HostRequest) (rest : List HostRequest) : (s.present r rest).rot = s.rot := rfl
@[simp] theorem State.present_color (r : HostRequest) (rest : List HostRequest) : (s.present r rest).color = s.color := rfl
@[simp] theorem State.present_rowb (r : HostRequest) (rest : List HostRequest) : (s.present r rest).rowb = s.rowb := rfl
@[simp] theorem State.present_len (r : HostRequest) (rest : List HostRequest) : (s.present r rest).len = s.len := rfl
@[simp] theorem State.present_lw (r : HostRequest) (rest : List HostRequest) : (s.present r rest).lw = s.lw := rfl
@[simp] theorem State.present_lh (r : HostRequest) (rest : List HostRequest) : (s.present r rest).lh = s.lh := rfl
@[simp] theorem State.present_fb (r : HostRequest) (rest : List HostRequest) : (s.present r rest).fb = s.fb := rfl
@[simp] theorem State.present_idx (r : HostRequest) (rest : List HostRequest) : (s.present r rest).idx = s.idx := rfl
@[simp] theorem State.present_polls (r : HostRequest) (rest : List HostRequest) : (s.present r rest).polls = s.polls := rfl
@[simp] theorem State.present_T (r : HostRequest) (rest : List HostRequest) : (s.present r rest).T = s.T := rfl
@[simp] theorem State.present_panel (r : HostRequest) (rest : List HostRequest) : (s.present r rest).panel = s.panel := rfl
@[simp] theorem State.present_cfg (r : HostRequest) (rest : List HostRequest) : (s.present r rest).cfg = s.cfg := rfl
@[simp] theorem State.present_env (r : HostRequest) (rest : List HostRequest) : (s.present r rest).env = s.env := rfl
@[simp] theorem State.present_host (r : HostRequest) (rest : List HostRequest) : (s.present r rest).host = rest := rfl
@[simp] theorem State.present_port (r : HostRequest) (rest : List HostRequest) : (s.present r rest).port = r.image := rfl

/-! ### afterSyms: the fields that sending leaves alone -/

@[simp] theorem State.afterSyms_pinRST (xs : List Sym) : (s.afterSyms xs).pinRST = s.pinRST := by unfold State.afterSyms; split <;> rfl
@[simp] theorem State.afterSyms_ps (xs : List Sym) : (s.afterSyms xs).ps = s.ps := by unfold State.afterSyms; split <;> rfl
@[simp] theorem State.afterSyms_session (xs : List Sym) : (s.afterSyms xs).session = s.session := by unfold State.afterSyms; split <;> rfl
@[simp] theorem State.afterSyms_err (xs : List Sym) : (s.afterSyms xs).err = s.err := by unfold State.afterSyms; split <;> rfl
@[simp] theorem State.afterSyms_errInfo (xs : List Sym) : (s.afterSyms xs).errInfo = s.errInfo := by unfold State.afterSyms; split <;> rfl
@[simp] theorem State.afterSyms_w (xs : List Sym) : (s.afterSyms xs).w = s.w := by unfold State.afterSyms; split <;> rfl
@[simp] theorem State.afterSyms_h (xs : List Sym) : (s.afterSyms xs).h = s.h := by unfold State.afterSyms; split <;> rfl
@[simp] theorem State.afterSyms_rot (xs : List Sym) : (s.afterSyms xs).rot = s.rot := by unfold State.afterSyms; split <;> rfl
@[simp] theorem State.afterSyms_color (xs : List Sym) : (s.afterSyms xs).color = s.color := by unfold State.afterSyms; split <;> rfl
@[simp] theorem State.afterSyms_rowb (xs : List Sym) : (s.afterSyms xs).rowb = s.rowb := by unfold State.afterSyms; split <;> rfl
@[simp] theorem State.afterSyms_len (xs : List Sym) : (s.afterSyms xs).len = s.len := by unfold State.afterSyms; split <;> rfl
@[simp] theorem State.afterSyms_lw (xs : List Sym) : (s.afterSyms xs).lw = s.lw := by unfold State.afterSyms; split <;> rfl
@[simp] theorem State.afterSyms_lh (xs : List Sym) : (s.afterSyms xs).lh = s.lh := by unfold State.afterSyms; split <;> rfl
@[simp] theorem State.afterSyms_fb (xs : List Sym) : (s.afterSyms xs).fb = s.fb := by unfold State.afterSyms; split <;> rfl
@[simp] theorem State.afterSyms_idx (xs : List Sym) : (s.afterSyms xs).idx = s.idx := by unfold State.afterSyms; split <;> rfl
@[simp] theorem State.afterSyms_polls (xs : List Sym) : (s.afterSyms xs).polls = s.polls := by unfold State.afterSyms; split <;> rfl
@[simp] theorem State.afterSyms_cfg (xs : List Sym) : (s.afterSyms xs).cfg = s.cfg := by unfold State.afterSyms; split <;> rfl
@[simp] theorem State.afterSyms_env (xs : List Sym) : (s.afterSyms xs).env = s.env := by unfold State.afterSyms; split <;> rfl
@[simp] theorem State.afterSyms_host (xs : List Sym) : (s.afterSyms xs).host = s.host := by unfold State.afterSyms; split <;> rfl
@[simp] theorem State.afterSyms_port (xs : List Sym) : (s.afterSyms xs).port = s.port := by unfold State.afterSyms; split <;> rfl

end Sys2Proof.Machine
end

