-- ==== Sys2Proof/Laws/Panel.lean ====
section
/-! SUPPORT. What the panel's operations do to its tracking fields and its memories. -/

namespace Sys2Proof.Machine

/-- Both memories of the panel are canonical. -/
def Panel.Canonical (p : Panel) : Prop := Memory.wf p.ram = true ∧ Memory.wf p.glass = true

variable (p : Panel)

@[simp] theorem Panel.receive_busy (cfg : Params) (dc : Bool) (b : Byte) :
    (p.receive cfg dc b).busy = (p.busy || p.wakes dc b) := rfl
@[simp] theorem Panel.receive_hazard (cfg : Params) (dc : Bool) (b : Byte) :
    (p.receive cfg dc b).hazard = (p.hazard || p.busy) := rfl
@[simp] theorem Panel.receive_opcode (cfg : Params) (dc : Bool) (b : Byte) :
    (p.receive cfg dc b).opcode = if dc then p.opcode else some b := rfl
@[simp] theorem Panel.receive_index (cfg : Params) (dc : Bool) (b : Byte) :
    (p.receive cfg dc b).index = if dc then p.index + 1 else 0 := rfl
@[simp] theorem Panel.lose_hazard : p.lose.hazard = p.hazard := rfl
@[simp] theorem Panel.lose_busy : p.lose.busy = p.busy := rfl
@[simp] theorem Panel.missed_hazard : p.missed.hazard = p.hazard := rfl
@[simp] theorem Panel.missed_busy : p.missed.busy = true := rfl
@[simp] theorem Panel.latchReset_hazard : p.latchReset.hazard = p.hazard := rfl
@[simp] theorem Panel.latchReset_busy : p.latchReset.busy = true := rfl
@[simp] theorem Panel.latchReset_lost : p.latchReset.lost = p.lost := rfl
@[simp] theorem Panel.latchReset_glass : p.latchReset.glass = p.glass := rfl
@[simp] theorem Panel.latchReset_opcode : p.latchReset.opcode = none := rfl
@[simp] theorem Panel.lose_lost : p.lose.lost = true := rfl
@[simp] theorem Panel.lose_pending : p.lose.pending = none := rfl
@[simp] theorem Panel.recovered_hazard : p.recovered.hazard = p.hazard := by unfold Panel.recovered; split <;> rfl
@[simp] theorem Panel.recovered_busy : p.recovered.busy = p.busy := by unfold Panel.recovered; split <;> rfl
@[simp] theorem Panel.recovered_ram : p.recovered.ram = p.ram := by unfold Panel.recovered; split <;> rfl
@[simp] theorem Panel.recovered_glass : p.recovered.glass = p.glass := by unfold Panel.recovered; split <;> rfl
@[simp] theorem Panel.sampled_hazard (l : Bool) : (p.sampled l).hazard = p.hazard := by cases l <;> rfl
@[simp] theorem Panel.sampled_busy (l : Bool) : (p.sampled l).busy = l := by cases l <;> rfl
@[simp] theorem Panel.sampled_lost (l : Bool) : (p.sampled l).lost = p.lost := by cases l <;> rfl
@[simp] theorem Panel.sampled_pending (l : Bool) : (p.sampled l).pending = p.pending := by cases l <;> rfl
@[simp] theorem Panel.sampled_ram (l : Bool) : (p.sampled l).ram = p.ram := by cases l <;> rfl
@[simp] theorem Panel.sampled_regs (l : Bool) : (p.sampled l).regs = p.regs := by cases l <;> rfl

theorem Panel.lose_canonical : p.lose.Canonical := ⟨rfl, rfl⟩

theorem Panel.missed_canonical : p.missed.Canonical := ⟨rfl, rfl⟩

theorem Panel.latchReset_canonical (h : p.Canonical) : p.latchReset.Canonical := ⟨rfl, h.2⟩

theorem Panel.sampled_canonical (l : Bool) (h : p.Canonical) : (p.sampled l).Canonical := by
  cases l with
  | true => exact h
  | false =>
    refine ⟨h.1, ?_⟩
    simp only [Panel.sampled]
    cases p.refreshing <;> simp [h.1, h.2]

theorem Panel.command_canonical (op : Byte) (h : p.Canonical) : (p.command op).Canonical := by
  unfold Panel.command
  split
  · exact ⟨rfl, h.2⟩
  · split
    · exact ⟨h.1, rfl⟩
    · split
      · exact h
      · exact p.lose_canonical

theorem Panel.writeRam_canonical (cfg : Params) (b : Byte) (h : p.Canonical) : (p.writeRam cfg b).Canonical := by
  unfold Panel.writeRam
  split
  · exact ⟨Memory.wf_write _ _ _ h.1, h.2⟩
  · exact p.lose_canonical

theorem Panel.data_canonical (cfg : Params) (b : Byte) (h : p.Canonical) : (p.data cfg b).Canonical := by
  unfold Panel.data
  split
  · exact p.lose_canonical
  · split
    · exact p.writeRam_canonical cfg b h
    · split
      · exact p.lose_canonical
      · split
        · exact ⟨rfl, h.2⟩
        · exact h

theorem Panel.act_canonical (cfg : Params) (dc : Bool) (b : Byte) (h : p.Canonical) : (p.act cfg dc b).Canonical := by
  unfold Panel.act
  split
  · exact p.data_canonical cfg b h
  · exact p.command_canonical b h

theorem Panel.actLost_canonical (cfg : Params) (dc : Bool) (b : Byte) (h : p.Canonical) : (p.actLost cfg dc b).Canonical := by
  unfold Panel.actLost
  split
  · exact p.lose_canonical
  · rename_i r _
    have ha := Panel.act_canonical { p with regs := r, lost := false } cfg dc b h
    dsimp only
    split
    · exact Panel.lose_canonical _
    · exact ⟨rfl, ha.2⟩

theorem Panel.receive_canonical (cfg : Params) (dc : Bool) (b : Byte) (h : p.Canonical) :
    (p.receive cfg dc b).Canonical := by
  have key : Panel.Canonical (if p.busy then p.lose else if p.lost then p.actLost cfg dc b else p.act cfg dc b) := by
    split
    · exact p.lose_canonical
    · split
      · exact p.actLost_canonical cfg dc b h
      · exact p.act_canonical cfg dc b h
  exact key

theorem Panel.recovered_canonical (h : p.Canonical) : p.recovered.Canonical := by
  simpa [Panel.Canonical] using h

/-! ### A byte that reaches an idle panel: one case for each thing that may be assumed of it -/

/-- A known panel. -/
theorem Panel.receive_known (cfg : Params) (dc : Bool) (b : Byte) (hl : p.lost = false) (hb : p.busy = false) :
    p.receive cfg dc b =
      { p.act cfg dc b with
        opcode := if dc then p.opcode else some b
        index := if dc then p.index + 1 else 0
        busy := p.wakes dc b
        hazard := p.hazard } := by
  simp [Panel.receive, hl, hb]

/-- A panel of which nothing may be assumed stays one, whatever the byte (93_implementation_defined.md U1). -/
theorem Panel.receive_lost (cfg : Params) (dc : Bool) (b : Byte) (h : p.lost = true) : (p.receive cfg dc b).lost = true := by
  unfold Panel.receive
  dsimp only
  cases p.busy
  · simp only [h, if_true, Bool.false_eq_true, if_false]
    unfold Panel.actLost
    split
    · rfl
    · dsimp only
      split <;> rfl
  · rfl

/-- A byte that reaches a panel that may be busy leaves nothing to be assumed, and nothing pending (20_memory.md R72). -/
theorem Panel.receive_busy_lost (cfg : Params) (dc : Bool) (b : Byte) (h : p.busy = true) :
    (p.receive cfg dc b).lost = true ∧ (p.receive cfg dc b).pending = none := by
  simp [Panel.receive, h]

/-! ### Streams of symbols -/

@[simp] theorem receiveAll_nil (cfg : Params) : receiveAll cfg [] p = p := rfl

@[simp] theorem receiveAll_cons (cfg : Params) (x : Sym) (xs : List Sym) :
    receiveAll cfg (x :: xs) p = receiveAll cfg xs (p.receive cfg x.1 x.2) := rfl

theorem receiveAll_append (cfg : Params) (xs ys : List Sym) :
    receiveAll cfg (xs ++ ys) p = receiveAll cfg ys (receiveAll cfg xs p) := by
  simp [receiveAll, List.foldl_append]

end Sys2Proof.Machine
end

