-- ==== Sys2Proof/Laws/Codec.lean ====
section
/-! SUPPORT. What sending bytes does: one law for a codec call that succeeds, one for a call that fails, their extension to
streams of symbols, and what every way of sending keeps. -/

namespace Sys2Proof.Machine

/-! ### Traces -/

@[simp] theorem frames_nil : frames [] = [] := rfl

@[simp] theorem frames_cons (x : Sym) (xs : List Sym) : frames (x :: xs) = frame x ++ frames xs := rfl

theorem frames_append (xs ys : List Sym) : frames (xs ++ ys) = frames xs ++ frames ys := by
  simp [frames]

@[simp] theorem frame_length (x : Sym) : (frame x).length = 4 := rfl

@[simp] theorem txCount_frame (x : Sym) : txCount (frame x) = 1 := rfl

@[simp] theorem frames_length (xs : List Sym) : (frames xs).length = 4 * xs.length := by
  induction xs with
  | nil => rfl
  | cons x xs ih => simp only [frames_cons, List.length_append, frame_length, ih, List.length_cons]; omega

@[simp] theorem txCount_append (T U : List Event) : txCount (T ++ U) = txCount T + txCount U := by
  simp [txCount, List.countP_append]

@[simp] theorem txCount_frames (xs : List Sym) : txCount (frames xs) = xs.length := by
  induction xs with
  | nil => rfl
  | cons x xs ih =>
    rw [frames_cons, txCount_append, ih, txCount_frame, List.length_cons]
    omega

/-! ### The state after symbols -/

@[simp] theorem State.afterSyms_nil (s : State) : s.afterSyms [] = s := rfl

theorem State.afterSyms_singleton (s : State) (x : Sym) :
    s.afterSyms [x] =
      { s with pinCS := true, pinDC := x.1, sr := x.2, srBits := 0, T := s.T ++ frame x, seq := s.seq.after 4,
               panel := s.panel.receive s.cfg x.1 x.2 } := by
  simp [State.afterSyms]

/-- Sending is compositional. -/
theorem State.afterSyms_append (s : State) (xs ys : List Sym) :
    (s.afterSyms xs).afterSyms ys = s.afterSyms (xs ++ ys) := by
  cases hx : xs.getLast? with
  | none => simp [List.getLast?_eq_none_iff.mp hx]
  | some x =>
    cases hy : ys.getLast? with
    | none => simp [List.getLast?_eq_none_iff.mp hy]
    | some y =>
      simp [State.afterSyms, hx, hy, List.getLast?_append, frames_append, receiveAll_append, Nat.mul_add]

theorem State.afterSyms_cons (s : State) (x : Sym) (xs : List Sym) :
    s.afterSyms (x :: xs) = (s.afterSyms [x]).afterSyms xs := by
  rw [State.afterSyms_append]; rfl

@[simp] theorem State.afterSyms_T (s : State) (xs : List Sym) : (s.afterSyms xs).T = s.T ++ frames xs := by
  cases hx : xs.getLast? with
  | none => simp [List.getLast?_eq_none_iff.mp hx]
  | some x => simp [State.afterSyms, hx]

@[simp] theorem State.afterSyms_seq (s : State) (xs : List Sym) : (s.afterSyms xs).seq = s.seq.after (4 * xs.length) := by
  cases hx : xs.getLast? with
  | none => simp [List.getLast?_eq_none_iff.mp hx]
  | some x => simp [State.afterSyms, hx]

@[simp] theorem State.afterSyms_panel (s : State) (xs : List Sym) :
    (s.afterSyms xs).panel = receiveAll s.cfg xs s.panel := by
  cases hx : xs.getLast? with
  | none => simp [List.getLast?_eq_none_iff.mp hx]
  | some x => simp [State.afterSyms, hx]

@[simp] theorem State.afterSyms_setIdx (s : State) (xs : List Sym) (v : BitVec 29) :
    (s.setIdx v).afterSyms xs = (s.afterSyms xs).setIdx v := by
  unfold State.afterSyms; split <;> rfl

@[simp] theorem State.setIdx_setIdx (s : State) (v u : BitVec 29) : (s.setIdx v).setIdx u = s.setIdx u := rfl

@[simp] theorem State.memRead_setIdx (s : State) (v : BitVec 29) (i : Nat) : (s.setIdx v).memRead i = s.memRead i := rfl

@[simp] theorem State.memRead_afterSyms (s : State) (xs : List Sym) (i : Nat) :
    (s.afterSyms xs).memRead i = s.memRead i := by
  simp [State.memRead]

/-! ### TransportOk -/

theorem State.nextTxFails_iff (s : State) : s.nextTxFails = true ↔ txCount s.T + 1 ∈ s.env.txFail := by
  simp [State.nextTxFails]

@[simp] theorem State.transportOk_zero (s : State) : s.TransportOk 0 := fun _ h => absurd h (Nat.not_lt_zero _)

theorem State.transportOk_mono (s : State) {m n : Nat} (h : s.TransportOk n) (hm : m ≤ n) : s.TransportOk m :=
  fun j hj => h j (by omega)

theorem State.transportOk_succ (s : State) (n : Nat) (x : Sym) :
    s.TransportOk (n + 1) ↔ s.nextTxFails = false ∧ (s.afterSyms [x]).TransportOk n := by
  have e : s.nextTxFails = false ↔ txCount s.T + 1 ∉ s.env.txFail := by
    rw [← Bool.not_eq_true, State.nextTxFails_iff]
  rw [e]
  constructor
  · refine fun h => ⟨h 0 (by omega), fun j hj => ?_⟩
    have := h (j + 1) (by omega)
    simp at this ⊢
    rwa [show txCount s.T + 1 + 1 + j = txCount s.T + 1 + (j + 1) by omega]
  · rintro ⟨h0, h⟩ j hj
    cases j with
    | zero => simpa using h0
    | succ j =>
      have := h j (by omega)
      simp at this
      rwa [show txCount s.T + 1 + (j + 1) = txCount s.T + 1 + 1 + j by omega]

theorem State.transportOk_add (s : State) (xs : List Sym) (n : Nat) (h : s.TransportOk (xs.length + n)) :
    (s.afterSyms xs).TransportOk n := by
  intro j hj
  have := h (xs.length + j) (by omega)
  simp at this ⊢
  rwa [show txCount s.T + xs.length + 1 + j = txCount s.T + 1 + (xs.length + j) by omega]

/-- TransportOk reads only the trace and the ordinals. -/
theorem State.transportOk_congr {s t : State} {n : Nat} (hT : t.T = s.T) (he : t.env.txFail = s.env.txFail) :
    t.TransportOk n ↔ s.TransportOk n := by
  simp [State.TransportOk, hT, he]

/-! ### One codec call -/

@[simp] theorem State.nextTxFails_drive (s : State) (p : Pin) (l : Bool) : (s.drive p l).nextTxFails = s.nextTxFails := by
  simp [State.nextTxFails, txCount, Event.isTx]

/-- A codec call whose byte is sent (40_codec.md R120, R121). -/
theorem State.sendByte_ok (s : State) (dc : Bool) (b : Byte) (h : s.nextTxFails = false) :
    s.sendByte dc b = .done (s.afterSyms [(dc, b)]) := by
  simp only [State.sendByte, State.nextTxFails_drive, h, State.afterSyms_singleton, Bool.false_eq_true, if_false]
  simp only [State.tx, State.nextTxFails_drive, h]
  simp [State.drive, State.setPin, State.emit, frame]

/-- A codec call whose byte the transport does not send: the frame is closed, then the error is raised (40_codec.md R120,
60_exceptions.md R264). -/
theorem State.sendByte_fail (s : State) (dc : Bool) (b : Byte) (h : s.nextTxFails = true) :
    s.sendByte dc b =
      .raised (((s.afterSyms [(dc, b)]).setPanel s.panel.missed).raise .transportFailure (txCount s.T + 1)) := by
  have hT : txCount ((((s.drive .dc dc).drive .cs false).tx b).drive .cs true).T = txCount s.T + 1 := by
    simp [txCount, Event.isTx, List.countP_append, List.countP_cons]
  simp only [State.sendByte, State.nextTxFails_drive, h, if_true, hT]
  congr 2
  simp only [State.tx, State.nextTxFails_drive, h, if_true, State.afterSyms_singleton]
  simp [State.drive, State.setPin, State.emit, State.setPanel, frame]

/-- A codec call, whichever way it ends. -/
theorem State.sendByte_state (s : State) (dc : Bool) (b : Byte) :
    (s.sendByte dc b).state =
      if s.nextTxFails then ((s.afterSyms [(dc, b)]).setPanel s.panel.missed).raise .transportFailure (txCount s.T + 1)
      else s.afterSyms [(dc, b)] := by
  cases h : s.nextTxFails
  · rw [s.sendByte_ok _ _ h]; rfl
  · rw [s.sendByte_fail _ _ h]; rfl

/-! ### Streams -/

theorem State.sendSyms_ok (s : State) (xs : List Sym) (h : s.TransportOk xs.length) :
    s.sendSyms xs = .done (s.afterSyms xs) := by
  induction xs generalizing s with
  | nil => rfl
  | cons x xs ih =>
    obtain ⟨h0, h1⟩ := (s.transportOk_succ xs.length x).mp h
    rw [s.afterSyms_cons, ← ih _ h1]
    simp only [State.sendSyms, s.sendByte_ok _ _ h0]

/-- The first failing byte of a stream ends it: the bytes before it have been sent, its frame is closed, the error raised. -/
theorem State.sendSyms_fail (s : State) (xs : List Sym) (j : Nat) (x : Sym) (hj : xs[j]? = some x)
    (hok : s.TransportOk j) (hf : txCount s.T + 1 + j ∈ s.env.txFail) :
    s.sendSyms xs =
      .raised (((s.afterSyms (xs.take (j + 1))).setPanel (receiveAll s.cfg (xs.take j) s.panel).missed).raise
        .transportFailure (txCount s.T + 1 + j)) := by
  induction xs generalizing s j with
  | nil => simp at hj
  | cons y ys ih =>
    cases j with
    | zero =>
      have h0 : s.nextTxFails = true := by simpa [State.nextTxFails_iff] using hf
      simp only [State.sendSyms, s.sendByte_fail _ _ h0]
      simp
    | succ j =>
      obtain ⟨h0, h1⟩ := (s.transportOk_succ j y).mp hok
      have e : txCount s.T + 1 + 1 + j = txCount s.T + 1 + (j + 1) := by omega
      have := ih (s.afterSyms [y]) j (by simpa using hj) h1 (by simpa [e] using hf)
      simp only [State.sendSyms, s.sendByte_ok _ _ h0, this, State.afterSyms_append]
      simp [e]

/-- The loop of STREAM_BUFFER, all bytes sent. -/
theorem State.stream_ok (s : State) (n : Nat) (h : s.TransportOk n) (hw : s.idx.toNat + n < 2 ^ 29) :
    State.stream n s =
      .done ((s.afterSyms ((List.range' s.idx.toNat n).map fun i => (true, s.memRead i))).setIdx
        (s.idx + BitVec.ofNat 29 n)) := by
  induction n generalizing s with
  | zero => simp [State.stream, State.setIdx]
  | succ n ih =>
    obtain ⟨h0, h1⟩ := (s.transportOk_succ n (true, s.memRead s.idx.toNat)).mp h
    have hi : (s.idx + 1).toNat = s.idx.toNat + 1 := by simp; omega
    have e : s.idx + 1 + BitVec.ofNat 29 n = s.idx + BitVec.ofNat 29 (n + 1) := by
      apply BitVec.eq_of_toNat_eq; simp; omega
    simp only [State.stream, s.sendByte_ok _ _ h0]
    rw [ih ((s.afterSyms [(true, s.memRead s.idx.toNat)]).setIdx ((s.afterSyms [(true, s.memRead s.idx.toNat)]).idx + 1))
      ((State.transportOk_congr rfl rfl).mpr h1) (by simp only [State.setIdx_idx, State.afterSyms_idx, hi]; omega)]
    simp only [State.setIdx_idx, State.afterSyms_idx, hi, e, State.memRead_setIdx, State.memRead_afterSyms,
      State.afterSyms_setIdx, State.setIdx_setIdx, State.afterSyms_append]
    rw [List.range'_succ]
    rfl

/-- STREAM_BUFFER, all bytes sent: the buffer in ascending index, and IDX at LEN (43_frame_buffer.md R207). -/
theorem State.streamBuffer_ok (s : State) (h : s.TransportOk s.len.toNat) :
    s.streamBuffer = .done ((s.afterSyms (s.bufferBytes.map fun b => (true, b))).setIdx s.len) := by
  have hl := s.len.isLt
  rw [State.streamBuffer, State.stream_ok (s.setIdx 0) _ ((State.transportOk_congr rfl rfl).mpr h) (by simpa using hl)]
  simp [State.bufferBytes, List.range_eq_range', Function.comp_def]

/-! ### What every way of sending keeps -/

section Keeps
variable {P : State → Prop} (hbyte : ∀ s dc b, P s → P (State.sendByte dc b s).state)

include hbyte in
theorem State.sendSyms_keeps (xs : List Sym) (s : State) (h : P s) : P (s.sendSyms xs).state := by
  induction xs generalizing s with
  | nil => exact h
  | cons x xs ih =>
    have := hbyte s x.1 x.2 h
    simp only [State.sendSyms]
    cases hb : s.sendByte x.1 x.2 with
    | done t => rw [hb] at this; exact ih t this
    | raised t => rw [hb] at this; exact this

variable (hidx : ∀ s v, P s → P (State.setIdx v s))

include hbyte hidx in
theorem State.stream_keeps (n : Nat) (s : State) (h : P s) : P (State.stream n s).state := by
  induction n generalizing s with
  | zero => exact h
  | succ n ih =>
    have := hbyte s true (s.memRead s.idx.toNat) h
    simp only [State.stream]
    cases hb : s.sendByte true (s.memRead s.idx.toNat) with
    | done t => rw [hb] at this; exact ih _ (hidx _ _ this)
    | raised t => rw [hb] at this; exact this

include hbyte hidx in
/-- A micro-operation answers a next state, and what a codec call keeps it keeps. -/
theorem exec_keeps (i : Instr) (hi : i.format ≠ .hostWord) (s : State) (h : P s) :
    ∃ t, exec i s = .next t ∧ P t := by
  have group : ∀ op data, P (s.sendGroup op data).state := fun op data => State.sendSyms_keeps hbyte _ _ h
  cases i with
  | wrram =>
    have h1 := hbyte s false 0x24 h
    simp only [exec, execWrram]
    cases hb : s.sendByte false 0x24 with
    | done t => rw [hb] at h1; exact ⟨_, rfl, State.stream_keeps hbyte hidx _ _ (hidx _ _ h1)⟩
    | raised t => rw [hb] at h1; exact ⟨_, rfl, h1⟩
  | cmd b => exact ⟨_, rfl, hbyte s false b h⟩
  | dat b => exact ⟨_, rfl, hbyte s true b h⟩
  | openSession m => exact absurd rfl hi
  | init => exact absurd rfl hi
  | paint c => exact absurd rfl hi
  | clear => exact absurd rfl hi
  | paintImage => exact absurd rfl hi
  | sleep => exact absurd rfl hi
  | swreset => exact ⟨_, rfl, group _ _⟩
  | drvout => exact ⟨_, rfl, group _ _⟩
  | dentry => exact ⟨_, rfl, group _ _⟩
  | ramxwin xs xe => exact ⟨_, rfl, group _ _⟩
  | ramywin ys ye => exact ⟨_, rfl, group _ _⟩
  | ramxcnt => exact ⟨_, rfl, group _ _⟩
  | ramycnt => exact ⟨_, rfl, group _ _⟩
  | border => exact ⟨_, rfl, group _ _⟩
  | updctl1 => exact ⟨_, rfl, group _ _⟩
  | tempsen => exact ⟨_, rfl, group _ _⟩
  | updctl2 => exact ⟨_, rfl, group _ _⟩
  | activate => exact ⟨_, rfl, group _ _⟩
  | dsleep => exact ⟨_, rfl, group _ _⟩

end Keeps

end Sys2Proof.Machine
end

