-- ==== Sys2Proof/Laws/Operands.lean ====
section
/-! SUPPORT. The values of the assembled operands and of the row arithmetic. -/

namespace Sys2Proof

theorem xByte_toNat (x : Coord) : (xByte x).toNat = x.toNat / 8 % 256 := by
  simp [xByte, Nat.shiftRight_eq_div_pow]

theorem yLow_toNat (y : Coord) : (yLow y).toNat = y.toNat % 256 := by
  simp [yLow]

theorem yHigh_toNat (y : Coord) : (yHigh y).toNat = y.toNat / 256 := by
  have := y.isLt
  simp [yHigh, Nat.shiftRight_eq_div_pow]
  omega

theorem xByte_ofNat (x : Coord) : xByte x = BitVec.ofNat 8 (x.toNat / 8) := by
  apply BitVec.eq_of_toNat_eq; simp [xByte_toNat]

theorem yLow_ofNat (y : Coord) : yLow y = BitVec.ofNat 8 y.toNat := by
  apply BitVec.eq_of_toNat_eq; simp [yLow_toNat]

theorem yHigh_ofNat (y : Coord) : yHigh y = BitVec.ofNat 8 (y.toNat / 256) := by
  have := y.isLt
  apply BitVec.eq_of_toNat_eq; simp [yHigh_toNat]; omega

@[simp] theorem yOfBytes_yLow_yHigh (y : Coord) : yOfBytes (yLow y) (yHigh y) = y := by
  apply BitVec.eq_of_getLsbD_eq
  intro i hi
  simp [yOfBytes, yLow, yHigh]
  by_cases h : i < 8 <;> simp [h, hi]
  rw [show 8 + (i - 8) = i by omega]
  simp [show i - 8 < 16 by omega, show i - 8 < 8 by omega, BitVec.getLsbD_eq_getElem hi]

@[simp] theorem yLow_yOfBytes (a b : Byte) : yLow (yOfBytes a b) = a := by
  apply BitVec.eq_of_getLsbD_eq
  intro i hi
  simp [yOfBytes, yLow, hi]

@[simp] theorem yHigh_yOfBytes (a b : Byte) : yHigh (yOfBytes a b) = b := by
  apply BitVec.eq_of_getLsbD_eq
  intro i hi
  simp [yOfBytes, yHigh, hi, show 8 + i < 16 by omega, show i < 16 by omega]

@[simp] theorem xByte_xOfByte (a : Byte) : xByte (xOfByte a) = a := by
  have := a.isLt
  apply BitVec.eq_of_toNat_eq
  simp [xByte_toNat, xOfByte, Nat.shiftLeft_eq]
  omega

theorem xOfByte_toNat (a : Byte) : (xOfByte a).toNat = a.toNat * 8 := by
  have := a.isLt
  simp [xOfByte, Nat.shiftLeft_eq]
  omega

theorem rowBytesNat_eq (w : Nat) : rowBytesNat w = (w + 7) / 8 := by
  unfold rowBytesNat; split <;> omega

theorem rowBytes_toNat (w : Coord) : (rowBytes w).toNat = (w.toNat + 7) / 8 := by
  have := w.isLt
  simp [rowBytes, rowBytesNat_eq]
  omega

/-- The product never overflows the 29 bits of LEN (43_frame_buffer.md R208). -/
theorem bufferLen_toNat (w h : Coord) : (bufferLen (rowBytes w) h).toNat = (rowBytes w).toNat * h.toNat := by
  have hw := w.isLt
  have hh := h.isLt
  have : (rowBytes w).toNat * h.toNat ≤ 8192 * 65535 :=
    Nat.mul_le_mul (by rw [rowBytes_toNat]; omega) (by omega)
  simp [bufferLen]
  omega

theorem panelKey_inj {xa xb : Byte} {y z : Coord} (h : panelKey xa y = panelKey xb z) : xa = xb ∧ y = z := by
  have := xa.isLt
  have := xb.isLt
  simp only [panelKey] at h
  exact ⟨BitVec.eq_of_toNat_eq (by omega), BitVec.eq_of_toNat_eq (by omega)⟩

end Sys2Proof
end

