-- ==== Sys2Proof/Laws/Glass.lean ====
section
/-! SUPPORT. What the panel's record becomes over the symbols of a whole INIT and of a whole paint (20_memory.md R73, R74;
70_reset_and_hazards.md R301). -/

namespace Sys2Proof.Machine

/-! ### INIT -/

/-- The panel after INIT's bytes, each wait ended by a low sample, and its completion. -/
def Panel.afterInit (cfg : Params) (p : Panel) : Panel :=
  ((receiveAll cfg (configSyms cfg) (((p.latchReset.sampled false).receive cfg false 0x12).sampled false)).sampled false).recovered

/-- Whatever the panel was, INIT leaves it known, idle and configured. -/
theorem Panel.afterInit_eq (cfg : Params) (p : Panel) :
    p.afterInit cfg =
      { p with
        regs :=
          { PanelRegs.free (p.draws + 2) with
            yMaxLow := 0xF9, yMaxHigh := 0x00, gateScan := cfg.gateScan, dataEntry := cfg.dataEntryMode
            xStart := 0x00, xEnd := 0x0F, yStartLow := 0x00, yStartHigh := 0x00, yEndLow := 0xF9, yEndHigh := 0x00
            xCounter := 0x00, yCounterLow := 0x00, yCounterHigh := 0x00, border := cfg.borderWaveform
            updCtl1A := cfg.updateCtrlA, updCtl1B := cfg.updateCtrlB, tempSensor := cfg.tempSensor }
        opcode := some 0x18
        index := 1
        ram := []
        busy := false
        refreshing := false
        lost := false
        pending := none
        draws := (p.afterInit cfg).draws } := by
  cases hl : p.lost
  all_goals
    simp [Panel.afterInit, configSyms, windowSyms, Panel.receive, Panel.latchReset, Panel.sampled, Panel.scramble, Panel.act,
      Panel.actLost, Panel.recovered, Panel.command, Panel.data, PanelRegs.store, cursorX, Panel.wakes, panelOpcodes, hl]

/-! ### The RAM write of a paint -/

/-- The panel takes the data of a 0x24 group into the whole window, and the first `i` bytes of `data` are in its RAM. -/
structure Panel.Streaming (cfg : Params) (data : List Byte) (i : Nat) (p : Panel) : Prop where
  lost : p.lost = false
  busy : p.busy = false
  opcode : p.opcode = some 0x24
  dataEntry : p.regs.dataEntry = cfg.dataEntryMode
  xStart : p.regs.xStart = 0
  xEnd : p.regs.xEnd = 15
  yStart : p.regs.yStart = 0
  yEnd : p.regs.yEnd = 249
  x : p.regs.xCounter.toNat = i % 16
  y : p.regs.yCounter.toNat = i / 16
  ram : ∀ j, j < i → p.ram.read? (j / 16 * 256 + j % 16) = data[j]?

/-- The cursor moves as R73 and G3 say. -/
theorem PanelRegs.advance_whole {r : PanelRegs} {i : Nat} (h0 : r.xStart = 0) (h1 : r.xEnd = 15) (hx : r.xCounter.toNat = i % 16)
    (hy : r.yCounter.toNat = i / 16) (hi : i < 4000) :
    r.advance.dataEntry = r.dataEntry ∧ r.advance.xStart = r.xStart ∧ r.advance.xEnd = r.xEnd ∧ r.advance.yStart = r.yStart ∧
      r.advance.yEnd = r.yEnd ∧ r.advance.xCounter.toNat = (i + 1) % 16 ∧ r.advance.yCounter.toNat = (i + 1) / 16 := by
  unfold PanelRegs.advance
  by_cases hxe : r.xCounter = r.xEnd
  · rw [if_pos hxe]
    rw [hxe, h1] at hx
    simp at hx
    refine ⟨rfl, rfl, rfl, rfl, rfl, ?_, ?_⟩
    · change r.xStart.toNat = _
      rw [h0]
      simp
      omega
    · change (yOfBytes (yLow (r.yCounter + 1)) (yHigh (r.yCounter + 1))).toNat = _
      simp [hy]
      omega
  · rw [if_neg hxe]
    have : r.xCounter.toNat ≠ 15 := fun e => hxe (by rw [h1]; exact BitVec.eq_of_toNat_eq (by simpa using e))
    refine ⟨rfl, rfl, rfl, rfl, rfl, ?_, ?_⟩
    · change (r.xCounter + 1).toNat = _
      simp
      omega
    · change r.yCounter.toNat = _
      omega

section
variable {cfg : Params} {data : List Byte} {p : Panel}

theorem Panel.Streaming.receive {i : Nat} {b : Byte} (h : p.Streaming cfg data i) (hi : i < 4000) (hb : data[i]? = some b) :
    (p.receive cfg true b).Streaming cfg data (i + 1) := by
  obtain ⟨a1, a2, a3, a4, a5, a6, a7⟩ := PanelRegs.advance_whole h.xStart h.xEnd h.x h.y hi
  have hin : p.regs.cursorInside = true := by
    simp [PanelRegs.cursorInside, h.xStart, h.xEnd, h.yStart, h.yEnd, BitVec.le_def, h.x, h.y]
    omega
  have hk : panelKey p.regs.xCounter p.regs.yCounter = i / 16 * 256 + i % 16 := by simp [panelKey, h.x, h.y]
  rw [Panel.receive_known _ _ _ _ h.lost h.busy]
  simp only [Panel.act, Panel.data, h.opcode, Panel.writeRam, h.dataEntry, hin, and_self, if_true, hk]
  refine ⟨h.lost, by simp [Panel.wakes, h.opcode], rfl, a1.trans h.dataEntry, a2.trans h.xStart, a3.trans h.xEnd,
    a4.trans h.yStart, a5.trans h.yEnd, a6, a7, fun j hj => ?_⟩
  change (p.ram.write (i / 16 * 256 + i % 16) b).read? _ = _
  by_cases hji : j = i
  · rw [hji, Memory.read?_write_same, hb]
  · rw [Memory.read?_write_other _ _ _ _ (by omega)]
    exact h.ram j (by omega)

theorem Panel.Streaming.receiveAll (h : p.Streaming cfg data 0) (hd : data.length ≤ 4000) (n : Nat) (hn : n ≤ data.length) :
    (Machine.receiveAll cfg ((data.take n).map fun b => (true, b)) p).Streaming cfg data n := by
  induction n with
  | zero => simpa using h
  | succ n ih =>
    rw [List.take_add_one, List.getElem?_eq_getElem (by omega), Option.toList_some, List.map_append, receiveAll_append]
    exact (ih (by omega)).receive (by omega) (List.getElem?_eq_getElem (by omega))

/-- A panel that is known, idle and in the data-entry mode the engine selects, after the symbols of a paint and the low sample
that ends its wait: it is so again, and the glass shows the buffer. -/
theorem Panel.after_paint (hd : data.length = 4000) (hl : p.lost = false) (hb : p.busy = false)
    (he : p.regs.dataEntry = cfg.dataEntryMode) :
    let q := (Machine.receiveAll cfg (paintSyms data) p).sampled false
    q.lost = false ∧ q.busy = false ∧ q.regs.dataEntry = cfg.dataEntryMode ∧
      ∀ j, j < 4000 → q.glass.read? (j / 16 * 256 + j % 16) = data[j]? := by
  have h0 : (Machine.receiveAll cfg (windowSyms ++ [(false, 0x24)]) p).Streaming cfg data 0 := by
    have e : Machine.receiveAll cfg (windowSyms ++ [(false, 0x24)]) p =
        { p with
          opcode := some 0x24
          index := 0
          regs :=
            { p.regs with
              xStart := 0, xEnd := 15, yStartLow := 0, yStartHigh := 0, yEndLow := 0xF9, yEndHigh := 0
              xCounter := 0, yCounterLow := 0, yCounterHigh := 0 } } := by
      simp [windowSyms, Panel.receive, Panel.act, cursorX, Panel.command, Panel.data, PanelRegs.store, Panel.wakes, panelOpcodes,
        hl, hb]
    rw [e]
    exact ⟨hl, hb, rfl, he, rfl, rfl, by change yOfBytes 0 0 = 0; decide, by change yOfBytes 0xF9 0 = 249; decide, rfl,
      by change (yOfBytes 0 0).toNat = _; decide, fun j hj => by omega⟩
  have h1 := h0.receiveAll (by omega) data.length (by omega)
  rw [List.take_length] at h1
  unfold paintSyms
  rw [receiveAll_append, List.append_cons windowSyms, receiveAll_append]
  revert h1
  generalize Machine.receiveAll cfg (data.map fun b => (true, b)) _ = q
  intro h1
  have e : ((Machine.receiveAll cfg [(false, 0x22), (true, 0xF7), (false, 0x20)] q).sampled false) =
      { q with
        opcode := some 0x20
        index := 0
        regs := { q.regs with updCtl2 := 0xF7 }
        glass := q.ram
        busy := false
        refreshing := false } := by
    simp [Panel.receive, Panel.act, Panel.command, Panel.data, PanelRegs.store, Panel.wakes, panelOpcodes, h1.lost, h1.busy,
      Panel.sampled, Config.updateSeq]
  rw [e]
  exact ⟨h1.lost, rfl, h1.dataEntry, fun j hj => h1.ram j (by omega)⟩

end

end Sys2Proof.Machine
end

