-- ==== Sys2Proof/Laws/Sequencer.lean ====
section
/-! SUPPORT. What a step can do: the equations of `step`, the fields after the sequencer moves on, runs of several steps, and
the principle by which a property that every operation keeps is kept by every step. -/

namespace Sys2Proof.Machine

/-! ### The sequencer moves on -/

theorem State.advance_idle (s : State) (h : s.seq = .idle) : s.advance = s := by
  simp [State.advance, h]

theorem State.advance_more (s : State) {op : Instr} {pos k : Nat} (h : s.seq = .running op pos k)
    (hp : pos + 1 < (program op).length) : s.advance = { s with seq := .running op (pos + 1) k } := by
  simp [State.advance, h, hp]

theorem State.advance_last (s : State) {op : Instr} {pos k : Nat} (h : s.seq = .running op pos k)
    (hp : ¬ pos + 1 < (program op).length) : s.advance = s.finish := by
  simp [State.advance, h, hp]

/-- The three things `advance` can do. -/
theorem State.advance_cases (s : State) :
    s.advance = s ∨ s.advance = s.finish ∨
      ∃ op pos k, s.seq = .running op pos k ∧ pos + 1 < (program op).length ∧
        s.advance = { s with seq := .running op (pos + 1) k } := by
  cases h : s.seq with
  | idle => exact .inl (s.advance_idle h)
  | running op pos k =>
    by_cases hp : pos + 1 < (program op).length
    · exact .inr (.inr ⟨op, pos, k, rfl, hp, s.advance_more h hp⟩)
    · exact .inr (.inl (s.advance_last h hp))

section AdvanceFields
variable (s : State)
@[simp] theorem State.advance_pinCS : s.advance.pinCS = s.pinCS := by rcases s.advance_cases with h | h | ⟨_, _, _, _, _, h⟩ <;> (rw [h]; try rfl)
@[simp] theorem State.advance_pinDC : s.advance.pinDC = s.pinDC := by rcases s.advance_cases with h | h | ⟨_, _, _, _, _, h⟩ <;> (rw [h]; try rfl)
@[simp] theorem State.advance_pinRST : s.advance.pinRST = s.pinRST := by rcases s.advance_cases with h | h | ⟨_, _, _, _, _, h⟩ <;> (rw [h]; try rfl)
@[simp] theorem State.advance_ps : s.advance.ps = s.ps := by rcases s.advance_cases with h | h | ⟨_, _, _, _, _, h⟩ <;> (rw [h]; try rfl)
@[simp] theorem State.advance_session : s.advance.session = s.session := by rcases s.advance_cases with h | h | ⟨_, _, _, _, _, h⟩ <;> (rw [h]; try rfl)
@[simp] theorem State.advance_err : s.advance.err = s.err := by rcases s.advance_cases with h | h | ⟨_, _, _, _, _, h⟩ <;> (rw [h]; try rfl)
@[simp] theorem State.advance_errInfo : s.advance.errInfo = s.errInfo := by rcases s.advance_cases with h | h | ⟨_, _, _, _, _, h⟩ <;> (rw [h]; try rfl)
@[simp] theorem State.advance_T : s.advance.T = s.T := by rcases s.advance_cases with h | h | ⟨_, _, _, _, _, h⟩ <;> (rw [h]; try rfl)
/-- The panel changes only when INIT is over. -/
theorem State.advance_panel : s.advance.panel = s.panel ∨ s.seq.isInit = true ∧ s.advance = s.finish ∧ s.advance.panel = s.panel.recovered := by
  rcases s.advance_cases with h | h | ⟨_, _, _, _, _, h⟩
  · exact .inl (by rw [h])
  · cases hi : s.seq.isInit
    · exact .inl (by simp [h, hi])
    · exact .inr ⟨rfl, h, by simp [h, hi]⟩
  · exact .inl (by rw [h])

@[simp] theorem State.advance_hazard : s.advance.panel.hazard = s.panel.hazard := by
  rcases s.advance_panel with h | ⟨_, _, h⟩ <;> simp [h]
@[simp] theorem State.advance_busy : s.advance.panel.busy = s.panel.busy := by
  rcases s.advance_panel with h | ⟨_, _, h⟩ <;> simp [h]
@[simp] theorem State.advance_cfg : s.advance.cfg = s.cfg := by rcases s.advance_cases with h | h | ⟨_, _, _, _, _, h⟩ <;> (rw [h]; try rfl)
@[simp] theorem State.advance_env : s.advance.env = s.env := by rcases s.advance_cases with h | h | ⟨_, _, _, _, _, h⟩ <;> (rw [h]; try rfl)
@[simp] theorem State.advance_polls : s.advance.polls = s.polls := by rcases s.advance_cases with h | h | ⟨_, _, _, _, _, h⟩ <;> (rw [h]; try rfl)
@[simp] theorem State.advance_w : s.advance.w = s.w := by rcases s.advance_cases with h | h | ⟨_, _, _, _, _, h⟩ <;> (rw [h]; try rfl)
@[simp] theorem State.advance_h : s.advance.h = s.h := by rcases s.advance_cases with h | h | ⟨_, _, _, _, _, h⟩ <;> (rw [h]; try rfl)
@[simp] theorem State.advance_len : s.advance.len = s.len := by rcases s.advance_cases with h | h | ⟨_, _, _, _, _, h⟩ <;> (rw [h]; try rfl)
@[simp] theorem State.advance_port : s.advance.port = s.port := by rcases s.advance_cases with h | h | ⟨_, _, _, _, _, h⟩ <;> (rw [h]; try rfl)
@[simp] theorem State.advance_host : s.advance.host = s.host := by rcases s.advance_cases with h | h | ⟨_, _, _, _, _, h⟩ <;> (rw [h]; try rfl)
end AdvanceFields

/-! ### The equations of a step -/

theorem step_idle (s : State) (h : s.seq = .idle) : step s = hostStep s := by simp [step, h]

theorem step_running (s : State) {op : Instr} {pos k : Nat} {m : Micro} (h : s.seq = .running op pos k)
    (hm : (program op)[pos]? = some m) : step s = runMicro m s := by
  simp [step, h, sequencerStep, hm]

theorem step_off_program (s : State) {op : Instr} {pos k : Nat} (h : s.seq = .running op pos k)
    (hm : (program op)[pos]? = none) : step s = .fault .sequencerOffProgram := by
  simp [step, h, sequencerStep, hm]

theorem hostStep_accepts (s : State) {r : HostRequest} {rest : List HostRequest} {i : Instr} (h : s.host = r :: rest)
    (hd : decodeHostWord r.word = .ok i) : hostStep s = exec i (s.present r rest) := by
  simp [hostStep, h, hd]

/-- What the host's decoder reads is a host operation. -/
theorem decodeHostWord_format {w : HostWord} {i : Instr} (h : decodeHostWord w = .ok i) : i.format = .hostWord := by
  have no : ∀ j, hostNoOperand j w = .ok i → j.format = .hostWord → i.format = .hostWord := by
    intro j hj hf
    unfold hostNoOperand at hj
    split at hj
    · cases hj; exact hf
    · cases hj
  unfold decodeHostWord at h
  split at h
  · cases h; rfl
  · exact no _ h rfl
  · split at h
    · cases h; rfl
    · cases h
  · exact no _ h rfl
  · exact no _ h rfl
  · exact no _ h rfl
  · cases h

/-- The three ways a step answers a next state. -/
theorem step_cases {s t : State} (h : step s = .next t) :
    (s.seq = .idle ∧ s.host = [] ∧ t = s) ∨
      (∃ r rest i, s.seq = .idle ∧ s.host = r :: rest ∧ decodeHostWord r.word = .ok i ∧
        exec i (s.present r rest) = .next t) ∨
      (∃ op pos k m, s.seq = .running op pos k ∧ (program op)[pos]? = some m ∧ runMicro m s = .next t) := by
  cases hq : s.seq with
  | idle =>
    rw [step_idle s hq] at h
    cases hh : s.host with
    | nil => simp only [hostStep, hh] at h; cases h; exact .inl ⟨rfl, rfl, rfl⟩
    | cons r rest =>
      cases hd : decodeHostWord r.word with
      | error e => simp only [hostStep, hh, hd] at h; cases h
      | ok i => rw [hostStep_accepts s hh hd] at h; exact .inr (.inl ⟨r, rest, i, rfl, rfl, hd, h⟩)
  | running op pos k =>
    cases hm : (program op)[pos]? with
    | none => rw [step_off_program s hq hm] at h; cases h
    | some m => rw [step_running s hq hm] at h; exact .inr (.inr ⟨op, pos, k, m, rfl, hm, h⟩)

/-! ### The host operations -/

/-- The five ways a host operation answers a next state: it is accepted and runs, or it is over at once. -/
theorem exec_host_cases {i : Instr} (hi : i.format = .hostWord) {s t : State} (h : exec i s = .next t) :
    s.seq = .idle ∧
      ((t = s.accept i ∧ spansSteps i = true ∧ (i = .init ∧ s.session = .opened ∨ i ≠ .init ∧ s.ps = .configured) ∧
          (i = .paintImage → s.port.length = 4000)) ∨
        (i = .init ∧ s.session = .closed ∧ t = { s with err := .acquisitionFailure, errInfo := 0, fb := [] }) ∨
        (∃ m, i = .openSession m ∧ s.session = .closed ∧ m ≠ s.cfg.modelIdProfile0 ∧
          t = { s with err := .unsupportedConfiguration, errInfo := m.toNat, fb := [] }) ∨
        (∃ m, i = .openSession m ∧ s.session = .closed ∧ m = s.cfg.modelIdProfile0 ∧ s.env.transportAnswer = false ∧
          t = { s with err := .acquisitionFailure, errInfo := 0, fb := [], env := s.env.afterTransport }) ∨
        (∃ m, i = .openSession m ∧ s.session = .closed ∧ m = s.cfg.modelIdProfile0 ∧ s.env.transportAnswer = true ∧
          t = { s with session := .opened, err := .noError, errInfo := 0, fb := [], env := s.env.afterTransport })) := by
  have idle : ∀ k, s.requireIdle k = .next t → s.seq = .idle ∧ k = .next t := by
    intro k hk
    unfold State.requireIdle at hk
    split at hk
    · exact ⟨‹_›, hk⟩
    · cases hk
  have conf : ∀ k, s.requireConfigured k = .next t → s.ps = .configured ∧ k = .next t := by
    intro k hk
    unfold State.requireConfigured at hk
    split at hk
    · exact ⟨‹_›, hk⟩
    · cases hk
  cases i with
  | openSession m =>
    obtain ⟨hs, h⟩ := idle _ h
    refine ⟨hs, .inr (.inr ?_)⟩
    split at h
    · rename_i hc
      by_cases hm : m = s.cfg.modelIdProfile0
      · cases ha : s.env.transportAnswer <;>
          simp [State.openBody, State.accept, State.raise, State.finish, State.consultTransport, hm, ha] at h <;> cases h
        · exact .inr (.inl ⟨m, rfl, hc, hm, rfl, by simp [hs]⟩)
        · exact .inr (.inr ⟨m, rfl, hc, hm, rfl, by simp [hs]⟩)
      · simp [State.openBody, State.accept, State.raise, hm] at h
        cases h
        exact .inl ⟨m, rfl, hc, hm, by simp [hs]⟩
    · cases h
  | init =>
    obtain ⟨hs, h⟩ := idle _ h
    refine ⟨hs, ?_⟩
    cases hc : s.session with
    | closed =>
      simp [State.initBody, State.accept, State.raise, hc] at h
      cases h
      exact .inr (.inl ⟨rfl, rfl, by simp [hs]⟩)
    | opened =>
      simp [State.initBody, hc] at h
      cases h
      exact .inl ⟨rfl, rfl, .inl ⟨rfl, rfl⟩, by simp⟩
  | paint c =>
    obtain ⟨hs, h⟩ := idle _ h
    obtain ⟨hp, h⟩ := conf _ h
    refine ⟨hs, .inl ?_⟩
    split at h
    · cases h; exact ⟨rfl, ‹_›, .inr ⟨by simp, hp⟩, by simp⟩
    · cases h
  | clear =>
    obtain ⟨hs, h⟩ := idle _ h
    obtain ⟨hp, h⟩ := conf _ h
    cases h
    exact ⟨hs, .inl ⟨rfl, rfl, .inr ⟨by simp, hp⟩, by simp⟩⟩
  | paintImage =>
    obtain ⟨hs, h⟩ := idle _ h
    obtain ⟨hp, h⟩ := conf _ h
    split at h
    · rename_i hl
      cases h
      exact ⟨hs, .inl ⟨rfl, rfl, .inr ⟨by simp, hp⟩, fun _ => hl⟩⟩
    · cases h
  | sleep =>
    obtain ⟨hs, h⟩ := idle _ h
    obtain ⟨hp, h⟩ := conf _ h
    cases h
    exact ⟨hs, .inl ⟨rfl, rfl, .inr ⟨by simp, hp⟩, by simp⟩⟩
  | cmd b => cases hi
  | dat b => cases hi
  | swreset => cases hi
  | drvout => cases hi
  | dentry => cases hi
  | ramxwin xs xe => cases hi
  | ramywin ys ye => cases hi
  | ramxcnt => cases hi
  | ramycnt => cases hi
  | border => cases hi
  | updctl1 => cases hi
  | tempsen => cases hi
  | wrram => cases hi
  | updctl2 => cases hi
  | activate => cases hi
  | dsleep => cases hi

/-! ### The expansions -/

theorem continueWith_next {o : Host.Outcome State Fault Refusal} {t : State} (h : continueWith o = .next t) :
    ∃ u, o = .next u ∧ t = u.advance := by
  cases o with
  | next u => cases h; exact ⟨u, rfl, rfl⟩
  | fault r => cases h
  | refused r => cases h

/-- Is a micro-step no host operation and, in an expansion of several steps, no bare codec operation. -/
def Micro.sends (spans : Bool) : Micro → Bool
  | .instr i => if spans then i.format == .panelOpcode else i.format != .hostWord
  | .resetPulse => true
  | .startWait => true
  | .poll => true
  | .enter _ => true
  | .build _ => true
  | .loadImage => true
  | .paintXWin => true
  | .paintYWin => true

theorem program_sends (op : Instr) : (program op).all (Micro.sends (spansSteps op)) = true := by
  cases op with
  | paint c => cases h : isColour c <;> simp only [spansSteps, h] <;> rfl
  | _ => rfl

/-- Every instruction of an expansion is a panel command or the running codec operation itself. -/
theorem program_instr {op i : Instr} {pos : Nat} (h : (program op)[pos]? = some (.instr i)) :
    i.format ≠ .hostWord ∧ (spansSteps op = true → i.format = .panelOpcode) := by
  have hm := List.all_eq_true.mp (program_sends op) _ (List.mem_of_getElem? h)
  cases hs : spansSteps op <;> cases hf : i.format <;> simp [Micro.sends, hs, hf] at hm ⊢

/-- The reset pulse stands at the start of INIT alone. -/
theorem program_resetPulse {op : Instr} {pos : Nat} (h : (program op)[pos]? = some .resetPulse) : op = .init ∧ pos = 0 := by
  cases op <;> rcases pos with _ | pos <;>
    simp [program, paintProgram, showBuffer, turnOnDisplay, sleepSeq, configure, waitIdle, setWindow, setCursor] at h ⊢ <;>
    · have hm := List.mem_of_getElem? h
      simp at hm

/-! ### Runs of several steps -/

@[simp] theorem runFor_zero (s : State) : runFor 0 s = .next s := rfl

theorem runFor_step {s t : State} (n : Nat) (h : step s = .next t) : runFor (n + 1) s = runFor n t := by
  simp only [runFor, h]

theorem runFor_add {s t : State} (m n : Nat) (h : runFor m s = .next t) : runFor (m + n) s = runFor n t := by
  induction m generalizing s with
  | zero => cases h; simp
  | succ m ih =>
    simp only [runFor] at h
    cases hs : step s with
    | next u =>
      rw [hs] at h
      rw [show m + 1 + n = (m + n) + 1 by omega, runFor_step _ hs]
      exact ih h
    | fault r => rw [hs] at h; cases h
    | refused r => rw [hs] at h; cases h

/-! ### What every step keeps -/

/-- A property of states that every operation of the machine keeps. -/
structure Kept (P : State → Prop) : Prop where
  byte : ∀ s dc b, P s → P (State.sendByte dc b s).state
  idx : ∀ s v, P s → P (State.setIdx v s)
  present : ∀ s r rest, P s → P (State.present r rest s)
  accept : ∀ s op, P s → P (State.accept op s)
  finish : ∀ s, P s → P (State.finish s)
  raise : ∀ s e n, P s → P (State.raise e n s)
  opened : ∀ s, P s → P { s with session := .opened }
  transport : ∀ s, P s → P (State.consultTransport s)
  moved : ∀ s op pos k, P s → P { s with seq := .running op pos k }
  setPS : ∀ s p, P s → P (State.setPS p s)
  build : ∀ s w h r c, P s → P (State.buildBuffer w h r c s)
  load : ∀ s, P s → P (State.loadImage s)
  reset : ∀ s, P s → P (State.resetPulse s)
  startWait : ∀ s, P s → P (State.startWait s)
  pollOnce : ∀ s, P s → P (State.pollOnce s)
  delay : ∀ s n, P s → P (State.delay n s)

section
variable {P : State → Prop} (K : Kept P)
include K

theorem Kept.advance (s : State) (h : P s) : P s.advance := by
  rcases s.advance_cases with e | e | ⟨op, pos, k, _, _, e⟩
  · rwa [e]
  · rw [e]; exact K.finish s h
  · rw [e]; exact K.moved s op _ k h

/-- A host operation that answers a next state keeps the property. -/
theorem Kept.host {i : Instr} (hi : i.format = .hostWord) {s t : State} (h : P s) (he : exec i s = .next t) : P t := by
  have idle : ∀ k, s.requireIdle k = .next t → k = .next t := by
    intro k hk
    unfold State.requireIdle at hk
    split at hk
    · exact hk
    · cases hk
  have conf : ∀ k, s.requireConfigured k = .next t → k = .next t := by
    intro k hk
    unfold State.requireConfigured at hk
    split at hk
    · exact hk
    · cases hk
  cases i with
  | openSession m =>
    have := idle _ he
    split at this
    · cases this
      have ha := K.accept s (.openSession m) h
      unfold State.openBody
      split
      · exact K.raise _ _ _ ha
      · split
        · exact K.finish _ (K.opened _ (K.transport _ ha))
        · exact K.raise _ _ _ (K.transport _ ha)
    · cases this
  | init =>
    have := idle _ he
    cases this
    unfold State.initBody
    split
    · exact K.raise _ _ _ (K.accept _ _ h)
    · exact K.accept _ _ h
  | paint c =>
    have := conf _ (idle _ he)
    split at this
    · cases this; exact K.accept _ _ h
    · cases this
  | clear => cases conf _ (idle _ he); exact K.accept _ _ h
  | paintImage =>
    have := conf _ (idle _ he)
    split at this
    · cases this; exact K.accept _ _ h
    · cases this
  | sleep => cases conf _ (idle _ he); exact K.accept _ _ h
  | cmd b => cases hi
  | dat b => cases hi
  | swreset => cases hi
  | drvout => cases hi
  | dentry => cases hi
  | ramxwin xs xe => cases hi
  | ramywin ys ye => cases hi
  | ramxcnt => cases hi
  | ramycnt => cases hi
  | border => cases hi
  | updctl1 => cases hi
  | tempsen => cases hi
  | wrram => cases hi
  | updctl2 => cases hi
  | activate => cases hi
  | dsleep => cases hi

theorem Kept.exec {i : Instr} {s t : State} (h : P s) (he : exec i s = .next t) : P t := by
  by_cases hi : i.format = .hostWord
  · exact K.host hi h he
  · obtain ⟨u, hu, hp⟩ := exec_keeps K.byte K.idx i hi s h
    rw [hu] at he
    cases he
    exact hp

theorem Kept.continueWith {i : Instr} {s t : State} (h : P s) (he : Machine.continueWith (Machine.exec i s) = .next t) : P t := by
  cases hx : Machine.exec i s with
  | next u =>
    rw [hx] at he
    cases he
    exact K.advance u (K.exec h hx)
  | fault r => rw [hx] at he; cases he
  | refused r => rw [hx] at he; cases he

theorem Kept.micro {m : Micro} {s t : State} (h : P s) (he : runMicro m s = .next t) : P t := by
  cases m with
  | resetPulse => cases he; exact K.advance _ (K.reset _ h)
  | startWait => cases he; exact K.advance _ (K.startWait _ h)
  | poll =>
    cases he
    unfold State.poll
    split
    · exact K.advance _ (K.pollOnce _ h)
    · split
      · exact K.raise _ _ _ (K.pollOnce _ h)
      · exact K.delay _ _ (K.pollOnce _ h)
  | enter p => cases he; exact K.advance _ (K.setPS _ _ h)
  | build c => cases he; exact K.advance _ (K.build _ _ _ _ _ h)
  | loadImage => cases he; exact K.advance _ (K.load _ h)
  | paintXWin => exact K.continueWith (i := .ramxwin 0 (s.w - 1)) h he
  | paintYWin => exact K.continueWith (i := .ramywin 0 (s.h - 1)) h he
  | instr i => exact K.continueWith h he

/-- A property that every operation keeps is kept by every step. -/
theorem Kept.step {s t : State} (h : P s) (he : step s = .next t) : P t := by
  cases hq : s.seq with
  | idle =>
    rw [step_idle s hq] at he
    unfold hostStep at he
    split at he
    · cases he; exact h
    · split at he
      · cases he
      · exact K.exec (K.present _ _ _ h) he
  | running op pos k =>
    cases hm : (program op)[pos]? with
    | none => rw [step_off_program s hq hm] at he; cases he
    | some m => rw [step_running s hq hm] at he; exact K.micro h he

end

/-! ### One micro-step, the bytes sent -/

/-- A command frame group, all bytes sent (41_panel_commands.md). -/
theorem State.sendGroup_ok (s : State) (op : Byte) (data : List Byte) (h : s.TransportOk (data.length + 1)) :
    s.sendGroup op data = .done (s.afterSyms (groupSyms (op, data))) := by
  apply State.sendSyms_ok
  simpa [groupSyms] using h

end Sys2Proof.Machine
end

