-- ==== Sys2Proof/Laws/Run.lean ====
section
/-! SUPPORT. Runs of the sequencer: one step of each kind as an equation, the loop of WAIT_IDLE, and the composition of runs. -/

namespace Sys2Proof.Machine

/-! ### Composition -/

theorem runFor_one (s : State) : runFor 1 s = step s := by
  simp only [runFor]
  cases step s <;> rfl

/-- A run after a run. -/
theorem runFor_trans {s t u : State} (h : ∃ n, runFor n s = .next t) (h' : ∃ n, runFor n t = .next u) :
    ∃ n, runFor n s = .next u := by
  obtain ⟨m, hm⟩ := h
  obtain ⟨n, hn⟩ := h'
  exact ⟨m + n, by rw [runFor_add m n hm, hn]⟩

theorem runFor_of_step {s t : State} (h : step s = .next t) : ∃ n, runFor n s = .next t :=
  ⟨1, by rw [runFor_one, h]⟩

/-! ### One micro-step -/

section
variable {s : State} {op : Instr} {pos k : Nat}

/-- A micro-step that a function of the state performs, more micro-steps following. -/
theorem step_more {m : Micro} {t : State} {n : Nat} (hq : s.seq = .running op pos k) (hm : (program op)[pos]? = some m)
    (ht : runMicro m s = .next t.advance) (hs : t.seq = s.seq.after n) (hl : pos + 1 < (program op).length) :
    step s = .next { t with seq := .running op (pos + 1) (k + n) } := by
  rw [step_running s hq hm, ht, t.advance_more (by rw [hs, hq]; rfl) hl]

/-- A micro-step that ends the operation. -/
theorem step_last {m : Micro} {t : State} {n : Nat} (hq : s.seq = .running op pos k) (hm : (program op)[pos]? = some m)
    (ht : runMicro m s = .next t.advance) (hs : t.seq = s.seq.after n) (hl : ¬ pos + 1 < (program op).length) :
    step s = .next t.finish := by
  rw [step_running s hq hm, ht, t.advance_last (by rw [hs, hq]; rfl) hl]

/-- The micro-step of an instruction whose next state is known. -/
theorem runMicro_instr {i : Instr} {t : State} (h : exec i s = .next t) : runMicro (.instr i) s = .next t.advance := by
  simp only [runMicro, h, continueWith]

/-! ### WAIT_IDLE (42_panel_state_machine.md R172) -/

/-- A high sample below the bound: one turn of the loop. -/
theorem step_poll_high (hq : s.seq = .running op pos k) (hm : (program op)[pos]? = some .poll)
    (hb : s.env.busyAnswer = true) (ht : s.pollOnce.timedOut = false) :
    step s = .next
      { s with
        polls := s.polls + 1
        T := s.T ++ [.smp true, .dly 10]
        seq := .running op pos (k + 2)
        panel := s.panel.sampled true
        env := s.env.afterBusy } := by
  rw [step_running s hq hm]
  simp only [runMicro, State.poll, hb, ht, Bool.true_eq_false, Bool.false_eq_true, if_false]
  simp [State.pollOnce, State.sampleBusy, State.delay, State.emit, hb, hq, Config.tPoll]

/-- A low sample ends the loop. -/
theorem step_poll_low (hq : s.seq = .running op pos k) (hm : (program op)[pos]? = some .poll)
    (hl : pos + 1 < (program op).length) (hb : s.env.busyAnswer = false) :
    step s = .next
      { s with
        polls := s.polls + 1
        T := s.T ++ [.smp false]
        seq := .running op (pos + 1) (k + 1)
        panel := s.panel.sampled false
        env := s.env.afterBusy } := by
  rw [step_running s hq hm]
  simp only [runMicro, State.poll, hb, if_true]
  rw [State.advance_more (op := op) (pos := pos) (k := k + 1) _ (by simp [hq]) hl]
  simp [State.pollOnce, State.sampleBusy, State.emit, hb]

/-- The entry of the wait. -/
theorem step_startWait (hq : s.seq = .running op pos k) (hm : (program op)[pos]? = some .startWait)
    (hl : pos + 1 < (program op).length) :
    step s = .next { s with ps := .awaitingIdle, polls := 0, seq := .running op (pos + 1) k } := by
  rw [step_more (n := 0) (t := s.startWait) hq hm rfl (by simp) hl]
  simp [State.startWait]

/-- A change of PS, more micro-steps following. -/
theorem step_enter {p : PanelState} (hq : s.seq = .running op pos k) (hm : (program op)[pos]? = some (.enter p))
    (hl : pos + 1 < (program op).length) : step s = .next { s with ps := p, seq := .running op (pos + 1) k } := by
  rw [step_more (n := 0) (t := s.setPS p) hq hm rfl (by simp) hl]
  simp [State.setPS]

/-- A change of PS that ends the operation. -/
theorem step_enter_last {p : PanelState} (hq : s.seq = .running op pos k) (hm : (program op)[pos]? = some (.enter p))
    (hl : ¬ pos + 1 < (program op).length) :
    step s = .next { s with
      ps := p
      panel := if op = .init then s.panel.recovered else s.panel
      seq := .idle
      fb := [] } := by
  rw [step_last (n := 0) (t := s.setPS p) hq hm rfl (by simp) hl]
  simp [State.setPS, State.finish, hq]

@[simp] theorem Panel.sampled_sampled (p : Panel) (l : Bool) : (p.sampled true).sampled l = p.sampled l := by
  cases l <;> rfl

theorem waitTrace_zero : waitTrace 0 = [.smp false] := rfl

theorem waitTrace_succ (m : Nat) : waitTrace (m + 1) = [.smp true, .dly 10] ++ waitTrace m := by
  simp [waitTrace, List.replicate_succ]

theorem waitAnswers_succ (m : Nat) : waitAnswers (m + 1) = true :: waitAnswers m := by
  simp [waitAnswers, List.replicate_succ]

@[simp] theorem waitAnswers_length (m : Nat) : (waitAnswers m).length = m + 1 := by simp [waitAnswers]

@[simp] theorem txCount_waitTrace (m : Nat) : txCount (waitTrace m) = 0 := by
  induction m with
  | zero => rfl
  | succ m ih => rw [waitTrace_succ, txCount_append, ih]; rfl

@[simp] theorem Env.busyAnswers_length (n : Nat) (e : Env) : (e.busyAnswers n).length = n := by
  induction n generalizing e with
  | zero => rfl
  | succ n ih => simp [Env.busyAnswers, ih]

theorem Env.busyAnswers_add (a b : Nat) (e : Env) :
    e.busyAnswers (a + b) = e.busyAnswers a ++ (e.afterSamples a).busyAnswers b := by
  induction a generalizing e with
  | zero => simp [Env.busyAnswers, Env.afterSamples]
  | succ a ih =>
    rw [show a + 1 + b = (a + b) + 1 by omega]
    simp [Env.busyAnswers, Env.afterSamples, ih]

theorem Env.afterSamples_add (a b : Nat) (e : Env) : e.afterSamples (a + b) = (e.afterSamples a).afterSamples b := by
  induction a generalizing e with
  | zero => simp [Env.afterSamples]
  | succ a ih =>
    rw [show a + 1 + b = (a + b) + 1 by omega]
    simp [Env.afterSamples, ih]

@[simp] theorem Env.afterSamples_txFail (a : Nat) (e : Env) : (e.afterSamples a).txFail = e.txFail := by
  induction a generalizing e with
  | zero => rfl
  | succ a ih =>
    simp only [Env.afterSamples, ih, Env.afterBusy]
    split <;> rfl

/-- The bound is not reached by the next high sample. -/
theorem State.pollOnce_not_timedOut (s : State) (h : ∀ n, s.cfg.busyTimeoutPolls = some n → s.polls + 1 < n) :
    s.pollOnce.timedOut = false := by
  unfold State.timedOut
  cases hb : s.cfg.busyTimeoutPolls with
  | none => simp [hb]
  | some n =>
    have := h n hb
    rw [State.pollOnce_cfg, hb]
    change decide (n ≤ s.polls + 1) = false
    simpa using this

/-- The loop with `m` high samples and a low one. -/
theorem runFor_poll (m : Nat) (hq : s.seq = .running op pos k) (hm : (program op)[pos]? = some .poll)
    (hl : pos + 1 < (program op).length) (ha : s.env.busyAnswers (m + 1) = waitAnswers m)
    (hb : ∀ n, s.cfg.busyTimeoutPolls = some n → s.polls + m < n) :
    runFor (m + 1) s = .next
      { s with
        polls := s.polls + m + 1
        T := s.T ++ waitTrace m
        seq := .running op (pos + 1) (k + 2 * m + 1)
        panel := s.panel.sampled false
        env := s.env.afterSamples (m + 1) } := by
  induction m generalizing s k with
  | zero =>
    have h0 : s.env.busyAnswer = false := by simpa [Env.busyAnswers, waitAnswers] using ha
    rw [runFor_one, step_poll_low hq hm hl h0]
    rfl
  | succ m ih =>
    rw [waitAnswers_succ, Env.busyAnswers, List.cons.injEq] at ha
    have ht := s.pollOnce_not_timedOut (fun n hn => by have := hb n hn; omega)
    rw [runFor_step _ (step_poll_high hq hm ha.1 ht), ih (k := k + 2) rfl ha.2 (fun n hn => by
      have := hb n hn
      simp only
      omega)]
    simp only [waitTrace_succ, List.append_assoc, Panel.sampled_sampled, Env.afterSamples]
    congr 2 <;> (try congr 1) <;> omega

/-! ### Panel commands -/

/-- A panel command other than WRRAM, all its bytes sent. -/
theorem exec_group {i : Instr} {xs : List Sym} (hi : i ≠ .wrram) (hx : s.groupOf i = some xs) (h : s.TransportOk xs.length) :
    exec i s = .next (s.afterSyms xs) := by
  have done : ∀ (op : Byte) (data : List Byte), s.TransportOk (groupSyms (op, data)).length →
      (Host.Outcome.next (s.sendGroup op data).state : Host.Outcome State Fault Refusal) = .next (s.afterSyms (groupSyms (op, data))) := by
    intro op data hd
    rw [s.sendGroup_ok op data (by simpa [groupSyms] using hd)]
    rfl
  cases i <;> simp only [State.groupOf, reduceCtorEq, Option.some.injEq] at hx <;> try contradiction
  all_goals
    subst hx
    try simp only [← xByte_ofNat, ← yLow_ofNat, ← yHigh_ofNat] at h ⊢
    exact done _ _ h

/-- WRRAM, all its bytes sent. -/
theorem exec_wrram (h : s.TransportOk (s.len.toNat + 1)) :
    exec .wrram s =
      .next ((s.afterSyms ((false, 0x24) :: s.bufferBytes.map fun b => (true, b))).setIdx s.len) := by
  obtain ⟨h0, h1⟩ := (s.transportOk_succ s.len.toNat (false, 0x24)).mp h
  have h2 := State.streamBuffer_ok (s.afterSyms [(false, 0x24)]) (by simpa using h1)
  have hb : (s.afterSyms [(false, 0x24)]).bufferBytes = s.bufferBytes := by simp [State.bufferBytes]
  simp only [exec, execWrram, s.sendByte_ok _ _ h0, h2, Sent.state, hb, State.afterSyms_append, State.afterSyms_len]
  rfl

/-- The symbols of a panel command other than WRRAM depend on the parameters alone. -/
theorem State.groupOf_congr {s t : State} {i : Instr} (hi : i ≠ .wrram) (hc : t.cfg = s.cfg) : t.groupOf i = s.groupOf i := by
  cases i <;> simp only [State.groupOf, hc]
  exact absurd rfl hi

/-- Sending does not read the position. -/
theorem State.afterSyms_withSeq (s : State) (xs : List Sym) (q : Seq) :
    { ({ s with seq := q } : State).afterSyms xs with seq := (s.afterSyms xs).seq } = s.afterSyms xs := by
  cases hx : xs.getLast? with
  | none => simp [List.getLast?_eq_none_iff.mp hx]
  | some x => simp [State.afterSyms, hx]

/-- Consecutive panel commands of an expansion, more micro-steps following. -/
theorem runFor_groups (is : List Instr) {xss : List (List Sym)} (hq : s.seq = .running op pos k)
    (hp : ((program op).drop pos).take is.length = is.map Micro.instr) (hx : is.map s.groupOf = xss.map some)
    (hw : .wrram ∉ is) (hl : pos + is.length < (program op).length) (h : s.TransportOk xss.flatten.length) :
    runFor is.length s = .next { s.afterSyms xss.flatten with
      seq := .running op (pos + is.length) (k + 4 * xss.flatten.length) } := by
  induction is generalizing s pos k xss with
  | nil =>
    cases xss with
    | nil => simp [← hq]
    | cons xs xss => simp at hx
  | cons i is ih =>
    cases xss with
    | nil => simp at hx
    | cons xs xss =>
      simp only [List.map_cons, List.cons.injEq] at hx
      obtain ⟨hx0, hx1⟩ := hx
      simp only [List.length_cons] at hp hl
      have hpos : pos < (program op).length := by omega
      rw [List.drop_eq_getElem_cons hpos, List.take_succ_cons, List.map_cons, List.cons.injEq] at hp
      have hm : (program op)[pos]? = some (.instr i) := by rw [List.getElem?_eq_getElem hpos, hp.1]
      have hi : i ≠ .wrram := fun e => hw (by simp [e])
      simp only [List.flatten_cons, List.length_append] at h
      have ha := s.transportOk_mono h (Nat.le_add_right _ _)
      have hb := s.transportOk_add xs _ h
      have hstep := step_more hq hm (runMicro_instr (exec_group hi hx0 ha)) (s.afterSyms_seq xs) (by omega)
      rw [List.length_cons, runFor_step _ hstep]
      rw [ih (s := { s.afterSyms xs with seq := .running op (pos + 1) (k + 4 * xs.length) }) rfl hp.2
        (by rw [← hx1]; exact List.map_congr_left fun j hj => State.groupOf_congr (fun e => hw (by simp [← e, hj])) (by simp))
        (fun e => hw (by simp [e])) (by omega) ((State.transportOk_congr rfl rfl).mpr hb)]
      rw [List.flatten_cons, ← State.afterSyms_append]
      congr 1
      cases hy : xss.flatten.getLast? with
      | none => simp [List.getLast?_eq_none_iff.mp hy]; omega
      | some y => simp [State.afterSyms, hy]; omega

end

end Sys2Proof.Machine
end

