-- ==== Sys2Proof/Laws/Paint.lean ====
section
/-! SUPPORT. The run that every paint shares once its buffer is made (44_orchestrator.md R233, R235): window, cursor, RAM write,
refresh and wait, all bytes sent and the wait ended by a low sample. -/

namespace Sys2Proof.Machine

/-- `s` after the symbols `xs`, the sequencer at a position, PS and IDX as given. -/
def State.sentAt (s : State) (xs : List Sym) (op : Instr) (pos k : Nat) (ps : PanelState) (ix : BitVec 29) : State :=
  { s.afterSyms xs with seq := .running op pos k, ps := ps, idx := ix }

section
variable (s : State) (xs : List Sym) (op : Instr) (pos k : Nat) (ps : PanelState) (ix : BitVec 29)

theorem State.sentAt_more (ys : List Sym) (pos' k' : Nat) :
    { (s.sentAt xs op pos k ps ix).afterSyms ys with seq := .running op pos' k' } = s.sentAt (xs ++ ys) op pos' k' ps ix := by
  unfold State.sentAt
  rw [← State.afterSyms_append]
  cases hy : ys.getLast? with
  | none => simp [List.getLast?_eq_none_iff.mp hy]
  | some y => simp [State.afterSyms, hy]

variable {s xs op pos k ps ix}

theorem State.sentAt_transportOk {n : Nat} (h : s.TransportOk (xs.length + n)) : (s.sentAt xs op pos k ps ix).TransportOk n :=
  (State.transportOk_congr rfl rfl).mpr (s.transportOk_add xs n h)

/-- A micro-step that acts as a panel command other than WRRAM. -/
theorem State.sentAt_group {m : Micro} {i : Instr} {ys : List Sym} (hm : (program op)[pos]? = some m)
    (hr : runMicro m (s.sentAt xs op pos k ps ix) = runMicro (.instr i) (s.sentAt xs op pos k ps ix)) (hi : i ≠ .wrram)
    (hx : (s.sentAt xs op pos k ps ix).groupOf i = some ys) (ht : s.TransportOk (xs.length + ys.length))
    (hl : pos + 1 < (program op).length) :
    ∃ n, runFor n (s.sentAt xs op pos k ps ix) = .next (s.sentAt (xs ++ ys) op (pos + 1) (k + 4 * ys.length) ps ix) := by
  rw [← State.sentAt_more s xs op pos k ps ix]
  refine runFor_of_step (step_more rfl hm ?_ ((s.sentAt xs op pos k ps ix).afterSyms_seq ys) hl)
  rw [hr]
  exact runMicro_instr (exec_group hi hx (State.sentAt_transportOk ht))

theorem State.sentAt_bufferBytes {data : List Byte} (hl : s.len.toNat = data.length) (hf : s.fb = Memory.ofBytes 0 data) :
    (s.sentAt xs op pos k ps ix).bufferBytes = data := by
  have hl' : (s.sentAt xs op pos k ps ix).len.toNat = data.length := by simpa [State.sentAt] using hl
  unfold State.bufferBytes
  rw [hl']
  refine List.ext_getElem (by simp) fun i h1 h2 => ?_
  simp [State.memRead, State.sentAt, hf, h2]

/-- The micro-step WRRAM of a buffer that holds `data`. -/
theorem State.sentAt_wrram {data : List Byte} (hm : (program op)[pos]? = some (.instr .wrram)) (hl : s.len.toNat = data.length)
    (hf : s.fb = Memory.ofBytes 0 data) (ht : s.TransportOk (xs.length + (data.length + 1)))
    (hp : pos + 1 < (program op).length) :
    ∃ n, runFor n (s.sentAt xs op pos k ps ix) =
      .next (s.sentAt (xs ++ (false, 0x24) :: data.map fun b => (true, b)) op (pos + 1) (k + 4 * (data.length + 1)) ps s.len) := by
  have hlen : (s.sentAt xs op pos k ps ix).len = s.len := by simp [State.sentAt]
  refine runFor_of_step ?_
  rw [step_more (n := 4 * (data.length + 1)) rfl hm
    (runMicro_instr (exec_wrram (State.sentAt_transportOk (by rw [hlen, hl]; exact ht))))
    (by rw [State.sentAt_bufferBytes hl hf]; simp) hp, State.sentAt_bufferBytes hl hf, hlen]
  congr 1
  exact congrArg (fun q : State => { q with idx := s.len })
    (State.sentAt_more s xs op pos k ps ix ((false, 0x24) :: data.map fun b => (true, b)) (pos + 1) (k + 4 * (data.length + 1)))

end

section
variable {s : State} {op : Instr} {p : Nat}

theorem showBuffer_micro (h : (program op).drop p = showBuffer) (j : Nat) : (program op)[p + j]? = showBuffer[j]? := by
  rw [← h, List.getElem?_drop]

theorem showBuffer_length (h : (program op).drop p = showBuffer) : (program op).length = p + 11 := by
  have : ((program op).drop p).length = 11 := by rw [h]; rfl
  rw [List.length_drop] at this
  omega

/-- The window and the cursor. -/
theorem runFor_windowSyms (h : (program op).drop p = showBuffer) (k : Nat) (ps : PanelState) (ix : BitVec 29) (hw : s.w = 122)
    (hh : s.h = 250) (ht : s.TransportOk 13) :
    ∃ k' n, runFor n (s.sentAt [] op p k ps ix) = .next (s.sentAt windowSyms op (p + 4) k' ps ix) := by
  have hl := showBuffer_length h
  have get := showBuffer_micro h
  refine ⟨k + 4 * 3 + 4 * 5 + 4 * 2 + 4 * 3, ?_⟩
  refine runFor_trans (State.sentAt_group (i := .ramxwin 0 121) (ys := [(false, 0x44), (true, 0), (true, 0xF)]) (get 0)
    (by simp [runMicro, State.sentAt, hw]) (by simp) rfl (s.transportOk_mono ht (by simp)) (by omega)) ?_
  refine runFor_trans (State.sentAt_group (i := .ramywin 0 249)
    (ys := [(false, 0x45), (true, 0), (true, 0), (true, 0xF9), (true, 0)]) (get 1)
    (by simp [runMicro, State.sentAt, hh]) (by simp) rfl (s.transportOk_mono ht (by simp)) (by omega)) ?_
  refine runFor_trans (State.sentAt_group (i := .ramxcnt) (ys := [(false, 0x4E), (true, 0)]) (get 2) rfl (by simp) rfl
    (s.transportOk_mono ht (by simp)) (by omega)) ?_
  exact State.sentAt_group (i := .ramycnt) (ys := [(false, 0x4F), (true, 0), (true, 0)]) (get 3) rfl (by simp) rfl
    (s.transportOk_mono ht (by simp)) (by omega)

/-- The refresh trigger. -/
theorem runFor_refreshSyms (h : (program op).drop p = showBuffer) (xs : List Sym) (k : Nat) (ps : PanelState) (ix : BitVec 29)
    (ht : s.TransportOk (xs.length + 3)) :
    ∃ k' n, runFor n (s.sentAt xs op (p + 5) k ps ix) =
      .next (s.sentAt (xs ++ [(false, 0x22), (true, 0xF7)] ++ [(false, 0x20)]) op (p + 8) k' .refreshing ix) := by
  have hl := showBuffer_length h
  have get := showBuffer_micro h
  refine ⟨k + 4 * 2 + 4 * 1, ?_⟩
  refine runFor_trans (runFor_of_step (step_enter (p := .refreshing) rfl (get 5) (by omega))) ?_
  refine runFor_trans (State.sentAt_group (ps := .refreshing) (i := .updctl2) (ys := [(false, 0x22), (true, 0xF7)]) (get 6) rfl
    (by simp) rfl (s.transportOk_mono ht (by simp)) (by omega)) ?_
  exact State.sentAt_group (i := .activate) (ys := [(false, 0x20)]) (get 7) rfl
    (by simp) rfl (s.transportOk_mono ht (by simp)) (by omega)

end

theorem paintSyms_eq (data : List Byte) :
    windowSyms ++ ((false, 0x24) :: data.map fun b => (true, b)) ++ [(false, 0x22), (true, 0xF7)] ++ [(false, 0x20)] =
      paintSyms data := by
  simp [paintSyms]

/-- The build of a paint leaves the whole panel's registers, the buffer 4000 bytes of the fill. -/
theorem step_build (s : State) {op : Instr} {c : Byte} {k : Nat} (hq : s.seq = .running op 0 k)
    (hm : (program op)[0]? = some (.build c)) (hl : 1 < (program op).length) :
    step s = .next
      { s with
        w := 122
        h := 250
        rot := s.cfg.rot
        color := c
        rowb := 16
        len := 4000
        lw := logicalW s.cfg.rot 122 250
        lh := logicalH s.cfg.rot 122 250
        fb := Memory.ofBytes 0 (List.replicate 4000 c)
        seq := .running op 1 k } := by
  have hr : rowBytes 122 = 16 := by decide
  have hn : bufferLen 16 250 = 4000 := by decide
  rw [step_more (n := 0) (t := s.buildBuffer 122 250 s.cfg.rot c) hq hm rfl (by simp) hl]
  simp only [State.buildBuffer, hr, hn]
  rfl

/-- From the end of the buffer's making to the end of the paint. -/
theorem runFor_showBuffer (s : State) (op : Instr) (p k m : Nat) {data : List Byte} (hd : data.length = 4000)
    (hprog : (program op).drop p = showBuffer) (hq : s.seq = .running op p k) (hw : s.w = 122) (hh : s.h = 250)
    (hl : s.len = 4000) (hf : s.fb = Memory.ofBytes 0 data) (hps : s.ps = .configured) (ht : s.TransportOk 4017)
    (ha : s.env.busyAnswers (m + 1) = waitAnswers m) (hb : ∀ n, s.cfg.busyTimeoutPolls = some n → m < n) :
    ∃ n, runFor n s = .next
      { s with
        pinCS := true
        pinDC := false
        ps := .configured
        seq := .idle
        sr := 0x20
        srBits := 0
        fb := []
        idx := 4000
        polls := m + 1
        T := s.T ++ frames (paintSyms data) ++ waitTrace m
        panel := (receiveAll s.cfg (paintSyms data) s.panel).sampled false
        env := s.env.afterSamples (m + 1) } := by
  have hlen := showBuffer_length hprog
  have get := showBuffer_micro hprog
  have hs : s = s.sentAt [] op p k .configured s.idx := by simp [State.sentAt, ← hps, ← hq]
  have hne : op ≠ .init := by
    rintro rfl
    exact absurd (List.mem_of_getElem? (get 0)) (by decide)
  have hlast : (paintSyms data).getLast? = some (false, 0x20) := by rw [← paintSyms_eq, List.getLast?_concat]
  obtain ⟨k₁, h₁⟩ := runFor_windowSyms (s := s) hprog k .configured s.idx hw hh (s.transportOk_mono ht (by simp))
  have h₂ := State.sentAt_wrram (s := s) (xs := windowSyms) (k := k₁) (ps := .configured) (ix := s.idx) (get 4) (by rw [hl, hd]; rfl) hf
    (s.transportOk_mono ht (by simp [hd, windowSyms])) (by omega)
  obtain ⟨k₃, h₃⟩ := runFor_refreshSyms (s := s) hprog (windowSyms ++ (false, 0x24) :: data.map fun b => (true, b))
    (k₁ + 4 * (data.length + 1)) .configured s.len (s.transportOk_mono ht (by simp [hd, windowSyms]))
  rw [paintSyms_eq] at h₃
  have h₄ := runFor_of_step (step_startWait (s := s.sentAt (paintSyms data) op (p + 8) k₃ .refreshing s.len) rfl (get 8) (by omega))
  have h := runFor_trans (runFor_trans (runFor_trans h₁ h₂) h₃) h₄
  obtain ⟨n, h₅⟩ := runFor_of_step (step_enter_last (p := .configured) (s :=
    { s.sentAt (paintSyms data) op (p + 8) k₃ .refreshing s.len with
      ps := .awaitingIdle
      polls := 0 + m + 1
      T := s.T ++ frames (paintSyms data) ++ waitTrace m
      seq := .running op (p + 10) (k₃ + 2 * m + 1)
      panel := (receiveAll s.cfg (paintSyms data) s.panel).sampled false
      env := s.env.afterSamples (m + 1) }) rfl (get 10) (by omega))
  have h₆ := runFor_trans h (runFor_trans ⟨_, runFor_poll m rfl (get 9) (by omega) (by simpa [State.sentAt] using ha)
      (by simpa [State.sentAt] using hb)⟩ ⟨n, by
    simp only [State.sentAt, State.afterSyms, hlast, hl, Nat.zero_add, List.append_assoc] at h₅ ⊢
    exact h₅⟩)
  rw [← hs] at h₆
  simpa [State.sentAt, State.afterSyms, hlast, hl, hne] using h₆

end Sys2Proof.Machine
end

