-- ==== Sys2Proof/Laws/PerInstr.lean ====
section
/-! SUPPORT. Statements made for each instruction as syntax, one lemma a constructor. EncodingShape: the encoding of an
instruction of the panel begins with one of the fourteen opcodes of 30_encoding.md R96, and that of every other one is the two
bytes of a symbol (R90) or of a host word (R93), their unused bits zero. -/

namespace Sys2Proof.Laws.EncodingShape

def Statement (i : Instr) : Prop :=
  match i.format with
  | .panelOpcode => ∃ op rest, encode i = op :: rest ∧ op ∈ Machine.panelOpcodes
  | .busSymbol => ∃ lo hi : Byte, encode i = [lo, hi] ∧ hi.toNat < 2
  | .hostWord => ∃ lo hi : Byte, encode i = [lo, hi] ∧ hi.toNat < 6

theorem swreset : Statement .swreset := ⟨_, _, rfl, by decide⟩
theorem drvout : Statement .drvout := ⟨_, _, rfl, by decide⟩
theorem dentry : Statement .dentry := ⟨_, _, rfl, by decide⟩
theorem ramxwin (xs xe : Coord) : Statement (.ramxwin xs xe) := ⟨_, _, rfl, by decide⟩
theorem ramywin (ys ye : Coord) : Statement (.ramywin ys ye) := ⟨_, _, rfl, by decide⟩
theorem ramxcnt : Statement .ramxcnt := ⟨_, _, rfl, by decide⟩
theorem ramycnt : Statement .ramycnt := ⟨_, _, rfl, by decide⟩
theorem border : Statement .border := ⟨_, _, rfl, by decide⟩
theorem updctl1 : Statement .updctl1 := ⟨_, _, rfl, by decide⟩
theorem tempsen : Statement .tempsen := ⟨_, _, rfl, by decide⟩
theorem wrram : Statement .wrram := ⟨_, _, rfl, by decide⟩
theorem updctl2 : Statement .updctl2 := ⟨_, _, rfl, by decide⟩
theorem activate : Statement .activate := ⟨_, _, rfl, by decide⟩
theorem dsleep : Statement .dsleep := ⟨_, _, rfl, by decide⟩
theorem cmd (b : Byte) : Statement (.cmd b) := ⟨_, _, rfl, by decide⟩
theorem dat (b : Byte) : Statement (.dat b) := ⟨_, _, rfl, by decide⟩
theorem openSession (m : Byte) : Statement (.openSession m) := ⟨_, _, rfl, by decide⟩
theorem init : Statement .init := ⟨_, _, rfl, by decide⟩
theorem paint (c : Byte) : Statement (.paint c) := ⟨_, _, rfl, by decide⟩
theorem clear : Statement .clear := ⟨_, _, rfl, by decide⟩
theorem paintImage : Statement .paintImage := ⟨_, _, rfl, by decide⟩
theorem sleep : Statement .sleep := ⟨_, _, rfl, by decide⟩

end Sys2Proof.Laws.EncodingShape
end

