-- ==== Sys2Proof/Laws/Tracking.lean ====
section
/-! SUPPORT. What a panel command of a running operation does to the status and to what is tracked of the panel: sent to a panel
that is not busy it strikes no hazard, and it leaves the panel busy or not as `leavesBusy` says; or the transport fails a byte and
the operation is over. -/

namespace Sys2Proof.Machine

/-! ### The expansions -/

theorem isColour_cases {c : Byte} (h : isColour c = true) : c = 0x00 ∨ c = 0xFF := by
  simpa [isColour, Config.black, Config.white] using h

/-- The operations that run for more than one step. -/
theorem spansSteps_cases {op : Instr} (h : spansSteps op = true) :
    op ∈ [Instr.init, .paint 0x00, .paint 0xFF, .clear, .paintImage, .sleep] := by
  cases op <;> simp [spansSteps] at h ⊢
  exact isColour_cases h

theorem psAfter_append (p : PanelState) (a b : List Micro) : psAfter p (a ++ b) = psAfter (psAfter p a) b := by
  induction a generalizing p with
  | nil => rfl
  | cons m a ih => cases m <;> simp [psAfter, ih]

/-! ### The two ways sending ends -/

/-- Sent since `s₀`, and the panel takes more data of the group `op`. -/
structure Sending (s₀ : State) (op : Byte) (s : State) : Prop where
  seq : ∃ n, s.seq = s₀.seq.after n
  ps : s.ps = s₀.ps
  err : s.err = s₀.err
  session : s.session = s₀.session
  hazard : s.panel.hazard = false
  busy : s.panel.busy = false
  opcode : s.panel.opcode = some op

/-- The transport failed a byte of an operation that was running at `s₀`. -/
structure Abandoned (s₀ s : State) : Prop where
  seq : s.seq = .idle
  ps : s.ps = .faulted
  err : s.err = .transportFailure
  session : s.session = s₀.session
  hazard : s.panel.hazard = false

/-- All sent since `s₀`, the panel busy or not as `b` says. -/
structure AllSent (s₀ : State) (b : Bool) (s : State) : Prop where
  seq : ∃ n, s.seq = s₀.seq.after n
  ps : s.ps = s₀.ps
  err : s.err = s₀.err
  session : s.session = s₀.session
  hazard : s.panel.hazard = false
  busy : s.panel.busy = b

theorem Sending.allSent {s₀ s : State} {op : Byte} (h : Sending s₀ op s) : AllSent s₀ false s :=
  ⟨h.seq, h.ps, h.err, h.session, h.hazard, h.busy⟩

/-- Sending ends with `P`, or abandoned. -/
def Sent.Ends (s₀ : State) (P : State → Prop) (r : Sent) : Prop :=
  (∃ u, r = .done u ∧ P u) ∨ ∃ u, r = .raised u ∧ Abandoned s₀ u

section
variable {s₀ s : State} {op : Byte}

theorem sendByte_abandoned (h₀ : s₀.seq ≠ .idle) (hq : ∃ n, s.seq = s₀.seq.after n) (hs : s.session = s₀.session)
    (hz : s.panel.hazard = false) (dc : Bool) (b : Byte) (hf : s.nextTxFails = true) :
    ∃ u, s.sendByte dc b = .raised u ∧ Abandoned s₀ u := by
  obtain ⟨n, hn⟩ := hq
  refine ⟨_, s.sendByte_fail _ _ hf, by simp, ?_, by simp, by simp [hs], ?_⟩
  · cases h : s₀.seq <;> simp_all
  · simp only [State.raise_panel]
    split <;> simp [hz]

theorem sendData_ends (h₀ : s₀.seq ≠ .idle) (h : Sending s₀ op s) (b : Byte) (ho : op ≠ 0x18 ∧ op ≠ 0x10) :
    (s.sendByte true b).Ends s₀ (Sending s₀ op) := by
  cases hf : s.nextTxFails
  · obtain ⟨n, hn⟩ := h.seq
    refine .inl ⟨_, s.sendByte_ok _ _ hf, ⟨n + 4, by simp [hn]⟩, by simpa using h.ps, by simpa using h.err,
      by simpa using h.session, by simp [h.hazard, h.busy], ?_, by simp [h.opcode]⟩
    simp only [State.afterSyms_panel, receiveAll_cons, receiveAll_nil, Panel.receive_busy, h.busy, Panel.wakes, h.opcode]
    simpa using ho
  · exact .inr (sendByte_abandoned h₀ h.seq h.session h.hazard _ _ hf)

theorem stream_ends (h₀ : s₀.seq ≠ .idle) (ho : op ≠ 0x18 ∧ op ≠ 0x10) (n : Nat) (h : Sending s₀ op s) :
    (State.stream n s).Ends s₀ (Sending s₀ op) := by
  induction n generalizing s with
  | zero => exact .inl ⟨s, rfl, h⟩
  | succ n ih =>
    rcases sendData_ends h₀ h (s.memRead s.idx.toNat) ho with ⟨u, hu, hg⟩ | ⟨u, hu, hd⟩
    · simp only [State.stream, hu]
      exact ih ⟨hg.seq, hg.ps, hg.err, hg.session, hg.hazard, hg.busy, hg.opcode⟩
    · simp only [State.stream, hu]
      exact .inr ⟨u, rfl, hd⟩

theorem sendDataBytes_ends (h₀ : s₀.seq ≠ .idle) (ho : op ≠ 0x18 ∧ op ≠ 0x10) (bs : List Byte) (h : Sending s₀ op s) :
    (State.sendSyms (bs.map fun b => (true, b)) s).Ends s₀ (Sending s₀ op) := by
  induction bs generalizing s with
  | nil => exact .inl ⟨s, rfl, h⟩
  | cons b bs ih =>
    rcases sendData_ends h₀ h b ho with ⟨u, hu, hg⟩ | ⟨u, hu, hd⟩
    · simp only [List.map_cons, State.sendSyms, hu]
      exact ih hg
    · simp only [List.map_cons, State.sendSyms, hu]
      exact .inr ⟨u, rfl, hd⟩

end

section
variable {s : State} (h₀ : s.seq ≠ .idle) (hz : s.panel.hazard = false) (hb : s.panel.busy = false)
include h₀ hz hb

theorem sendCommand_ends {op : Byte} (ho : op ≠ 0x12 ∧ op ≠ 0x20) : (s.sendByte false op).Ends s (Sending s op) := by
  cases hf : s.nextTxFails
  · refine .inl ⟨_, s.sendByte_ok _ _ hf, ⟨4, by simp⟩, by simp, by simp, by simp, by simp [hz, hb], ?_, by simp⟩
    simp only [State.afterSyms_panel, receiveAll_cons, receiveAll_nil, Panel.receive_busy, hb, Panel.wakes]
    simpa using ho
  · exact .inr (sendByte_abandoned h₀ ⟨0, by simp⟩ rfl hz _ _ hf)

/-- A group after which the panel is not busy. -/
theorem sendGroup_ends {op : Byte} (data : List Byte) (ho : op ≠ 0x12 ∧ op ≠ 0x20 ∧ op ≠ 0x18 ∧ op ≠ 0x10) :
    (s.sendGroup op data).Ends s (AllSent s false) := by
  rcases sendCommand_ends h₀ hz hb ⟨ho.1, ho.2.1⟩ with ⟨u, hu, hg⟩ | ⟨u, hu, hd⟩
  · simp only [State.sendGroup, groupSyms, State.sendSyms, hu]
    rcases sendDataBytes_ends h₀ ho.2.2 data hg with ⟨v, hv, hg⟩ | ⟨v, hv, hd⟩
    · exact .inl ⟨v, hv, hg.allSent⟩
    · exact .inr ⟨v, hv, hd⟩
  · simp only [State.sendGroup, groupSyms, State.sendSyms, hu]
    exact .inr ⟨u, rfl, hd⟩

/-- A group whose one data byte may leave the panel busy. -/
theorem sendGroup_one_ends {op : Byte} (b : Byte) (ho : op = 0x18 ∨ op = 0x10) :
    (s.sendGroup op [b]).Ends s (AllSent s true) := by
  rcases sendCommand_ends h₀ hz hb (op := op) (by rcases ho with rfl | rfl <;> simp) with ⟨u, hu, hg⟩ | ⟨u, hu, hd⟩
  · simp only [State.sendGroup, groupSyms, State.sendSyms, hu, List.map_cons, List.map_nil]
    cases hf : u.nextTxFails
    · obtain ⟨n, hn⟩ := hg.seq
      rw [u.sendByte_ok _ _ hf]
      refine .inl ⟨_, rfl, ⟨n + 4, by simp [hn]⟩, by simp [hg.ps], by simp [hg.err], by simp [hg.session],
        by simp [hg.hazard, hg.busy], ?_⟩
      rcases ho with rfl | rfl <;> simp [Panel.wakes, hg.opcode]
    · obtain ⟨v, hv, hd⟩ := sendByte_abandoned h₀ hg.seq hg.session hg.hazard true b hf
      rw [hv]
      exact .inr ⟨v, rfl, hd⟩
  · simp only [State.sendGroup, groupSyms, State.sendSyms, hu]
    exact .inr ⟨u, rfl, hd⟩

/-- A command without data that may leave the panel busy. -/
theorem sendGroup_none_ends {op : Byte} (ho : op = 0x12 ∨ op = 0x20) : (s.sendGroup op []).Ends s (AllSent s true) := by
  simp only [State.sendGroup, groupSyms, State.sendSyms, List.map_nil]
  cases hf : s.nextTxFails
  · rw [s.sendByte_ok _ _ hf]
    refine .inl ⟨_, rfl, ⟨4, by simp⟩, by simp, by simp, by simp, by simp [hz, hb], ?_⟩
    rcases ho with rfl | rfl <;> simp [Panel.wakes]
  · obtain ⟨v, hv, hd⟩ := sendByte_abandoned h₀ ⟨0, by simp⟩ rfl hz false op hf
    rw [hv]
    exact .inr ⟨v, rfl, hd⟩

/-- A panel command of a running operation, sent to a panel that is not busy. -/
theorem exec_panelCommand_ends {i : Instr} (hi : i.format = .panelOpcode) :
    (∃ u, exec i s = .next u ∧ AllSent s (leavesBusy i) u) ∨ ∃ u, exec i s = .next u ∧ Abandoned s u := by
  have out : ∀ {r : Sent} {b : Bool}, r.Ends s (AllSent s b) →
      (∃ u, (Host.Outcome.next r.state : Host.Outcome State Fault Refusal) = .next u ∧ AllSent s b u) ∨
        ∃ u, (Host.Outcome.next r.state : Host.Outcome State Fault Refusal) = .next u ∧ Abandoned s u := by
    rintro r b (⟨u, rfl, h⟩ | ⟨u, rfl, h⟩)
    · exact .inl ⟨u, rfl, h⟩
    · exact .inr ⟨u, rfl, h⟩
  cases i with
  | swreset => exact out (sendGroup_none_ends h₀ hz hb (by simp))
  | activate => exact out (sendGroup_none_ends h₀ hz hb (by simp))
  | tempsen => exact out (sendGroup_one_ends h₀ hz hb _ (by simp))
  | dsleep => exact out (sendGroup_one_ends h₀ hz hb _ (by simp))
  | wrram =>
    simp only [exec, execWrram]
    rcases sendCommand_ends h₀ hz hb (op := 0x24) (by simp) with ⟨u, hu, hg⟩ | ⟨u, hu, hd⟩
    · simp only [hu]
      rcases stream_ends h₀ (by simp) u.len.toNat (s := u.setIdx 0)
        ⟨hg.seq, hg.ps, hg.err, hg.session, hg.hazard, hg.busy, hg.opcode⟩ with ⟨v, hv, hg⟩ | ⟨v, hv, hd⟩
      · exact .inl ⟨v, by simp only [State.streamBuffer, hv]; rfl, hg.allSent⟩
      · exact .inr ⟨v, by simp only [State.streamBuffer, hv]; rfl, hd⟩
    · simp only [hu]
      exact .inr ⟨u, rfl, hd⟩
  | drvout => exact out (sendGroup_ends h₀ hz hb _ (by simp))
  | dentry => exact out (sendGroup_ends h₀ hz hb _ (by simp))
  | ramxwin xs xe => exact out (sendGroup_ends h₀ hz hb _ (by simp))
  | ramywin ys ye => exact out (sendGroup_ends h₀ hz hb _ (by simp))
  | ramxcnt => exact out (sendGroup_ends h₀ hz hb _ (by simp))
  | ramycnt => exact out (sendGroup_ends h₀ hz hb _ (by simp))
  | border => exact out (sendGroup_ends h₀ hz hb _ (by simp))
  | updctl1 => exact out (sendGroup_ends h₀ hz hb _ (by simp))
  | updctl2 => exact out (sendGroup_ends h₀ hz hb _ (by simp))
  | cmd b => cases hi
  | dat b => cases hi
  | openSession m => cases hi
  | init => cases hi
  | paint c => cases hi
  | clear => cases hi
  | paintImage => cases hi
  | sleep => cases hi

end

end Sys2Proof.Machine
end

