-- ==== Sys2Proof/Tests/Slice0.lean ====
section
/-! SUPPORT. The model's own tests. The expected values are those of spec/95_test_vectors.md (S1 to S9, V1 to V82, P5 to P8) or of
the rule named; the witnesses at the end show, for each statement with hypotheses, a state and operands that meet them. -/

namespace Sys2Proof.Tests

open Machine

/-! ### States for the tests -/

/-- One instantiation of the OPEN parameters, all bytes distinct. -/
def cfg : Params where
  gateScan := 0xA1
  dataEntryMode := 0xA2
  borderWaveform := 0xA3
  updateCtrlA := 0xA4
  updateCtrlB := 0xA5
  tempSensor := 0xA6
  sleepMode := 0xA7
  rot := .r90
  modelIdProfile0 := 1
  busyTimeoutPolls := none
  pixelMsbFirst := true

/-- A panel that is known and idle. -/
def panel : Panel where
  regs :=
    { yMaxLow := 0xF9, yMaxHigh := 0, gateScan := 0xA1, dataEntry := 0xA2, xStart := 0, xEnd := 0x0F, yStartLow := 0,
      yStartHigh := 0, yEndLow := 0xF9, yEndHigh := 0, xCounter := 0, yCounterLow := 0, yCounterHigh := 0, border := 0xA3,
      updCtl1A := 0xA4, updCtl1B := 0xA5, tempSensor := 0xA6, updCtl2 := 0xF7, sleepCtl := 0 }
  opcode := none
  index := 0
  ram := []
  glass := []
  busy := false
  refreshing := false
  lost := false
  pending := none
  hazard := false
  draws := 1

/-- Reset, with the parameters and the panel above. -/
def start : State := { State.reset with cfg := cfg, panel := panel }

/-- With a session. -/
def opened : State := { start with session := .opened }

/-- Configured. -/
def ready : State := { opened with ps := .configured }

/-- `s` at a position of a running operation. -/
def at_ (s : State) (op : Instr) (pos k : Nat) : State := { s with seq := .running op pos k }

/-- `s` with these answers of BUSY. -/
def answering (s : State) (bs : List Bool) : State := { s with env := { s.env with busy := bs } }

/-- `s` with a bound on the polls. -/
def bounded (s : State) (n : Nat) : State := { s with cfg := { s.cfg with busyTimeoutPolls := some n } }

/-- `s` with the host about to present a word. -/
def presenting (s : State) (w : HostWord) : State := { s with host := [{ word := w, image := [] }] }

/-- The next state, where there is one. -/
def next? : Host.Outcome State Fault Refusal → Option State
  | .next t => some t
  | .fault _ => none
  | .refused _ => none

/-- The trace after an instruction. -/
def traceOf (i : Instr) (s : State) : Option (List Event) := (next? (exec i s)).map State.T

/-- `C:b` of 00_scope.md R14. -/
def C (b : Byte) : List Event := [.drv .dc false, .drv .cs false, .tx b, .drv .cs true]

/-- `D:b` of R14. -/
def D (b : Byte) : List Event := [.drv .dc true, .drv .cs false, .tx b, .drv .cs true]

/-! ### WellFormed refuses the ill-formed -/

theorem test_wf_paint_colour : (Instr.paint 0x7F).wf = false ∧ (Instr.paint 0x00).wf = true ∧ (Instr.paint 0xFF).wf = true := by
  decide

theorem test_wf_request_image :
    HostRequest.wf { word := 0x400, image := [0x00] } = false ∧ HostRequest.wf { word := 0x300, image := [0x00] } = false ∧
      HostRequest.wf { word := 0x300, image := [] } = true := by decide

theorem test_wf_params_bound : Params.wf { cfg with busyTimeoutPolls := some 0 } = false ∧ cfg.wf = true := by decide

/-! ### Decoding: the words of 30_encoding.md, written out -/

/-- R96, the column of binary opcodes; operand bytes as R94 and R95 lay them out (V13, V27). -/
theorem test_decode_opcodes :
    decode .panelOpcode [0b00010010] = .ok .swreset [] ∧
    decode .panelOpcode [0b00000001] = .ok .drvout [] ∧
    decode .panelOpcode [0b00010001] = .ok .dentry [] ∧
    decode .panelOpcode [0b01000100, 0b00000000, 0b00001111] = .ok (.ramxwin 0 120) [] ∧
    decode .panelOpcode [0b01000101, 0b00110100, 0b00010010, 0b11111001, 0b00000000] = .ok (.ramywin 0x1234 249) [] ∧
    decode .panelOpcode [0b01001110] = .ok .ramxcnt [] ∧
    decode .panelOpcode [0b01001111] = .ok .ramycnt [] ∧
    decode .panelOpcode [0b00111100] = .ok .border [] ∧
    decode .panelOpcode [0b00100001] = .ok .updctl1 [] ∧
    decode .panelOpcode [0b00011000] = .ok .tempsen [] ∧
    decode .panelOpcode [0b00100100] = .ok .wrram [] ∧
    decode .panelOpcode [0b00100010] = .ok .updctl2 [] ∧
    decode .panelOpcode [0b00100000] = .ok .activate [] ∧
    decode .panelOpcode [0b00010000] = .ok .dsleep [] ∧
    decode .panelOpcode [0b00010011] = .reject (.unknownOpcode 0x13) := by decide

/-- R90: DC in bit 8. A data byte equal to an opcode is data (V6). -/
theorem test_decode_symbols :
    decodeSymbol 0b0_0010_0100 = .cmd 0x24 ∧ decodeSymbol 0b1_0010_0100 = .dat 0x24 := by decide

/-- R93, R97; the words of 95_test_vectors.md. -/
theorem test_decode_host_words :
    decodeHostWord 0x001 = .ok (.openSession 1) ∧ decodeHostWord 0x100 = .ok .init ∧ decodeHostWord 0x200 = .ok (.paint 0x00) ∧
    decodeHostWord 0x2FF = .ok (.paint 0xFF) ∧ decodeHostWord 0x300 = .ok .clear ∧ decodeHostWord 0x400 = .ok .paintImage ∧
    decodeHostWord 0x500 = .ok .sleep := ⟨rfl, rfl, rfl, rfl, rfl, rfl, rfl⟩

/-- The reserved words of 95_test_vectors.md. -/
theorem test_reserved_host_words :
    decodeHostWord 0x101 = .error (.operandNotZero 0x101) ∧ decodeHostWord 0x27F = .error (.reservedColour 0x27F) ∧
    decodeHostWord 0x600 = .error (.reservedOperation 0x600) ∧ decodeHostWord 0x7FF = .error (.reservedOperation 0x7FF) :=
  ⟨rfl, rfl, rfl, rfl⟩

/-- V10 to V28. -/
theorem test_operand_assembly :
    ([0, 7, 8, 121, 122, 127, 128, 249, 2047, 2048, 65535].map fun x => xByte x) =
      [0x00, 0x00, 0x01, 0x0F, 0x0F, 0x0F, 0x10, 0x1F, 0xFF, 0x00, 0xFF] ∧
    ([0, 1, 249, 250, 255, 256, 295, 0x1234, 65535].map fun y => (yLow y, yHigh y)) =
      [(0x00, 0x00), (0x01, 0x00), (0xF9, 0x00), (0xFA, 0x00), (0xFF, 0x00), (0x00, 0x01), (0x27, 0x01), (0x34, 0x12),
       (0xFF, 0xFF)] := by decide

/-! ### The codec -/

/-- V1, S4. -/
theorem test_cmd : traceOf (.cmd 0x12) start = some [.drv .dc false, .drv .cs false, .tx 0x12, .drv .cs true] := by decide

/-- V7 and P6: the byte that fails is the thirtieth of the trace. -/
theorem test_cmd_fails :
    (next? (exec (.cmd 0x44) { start with T := List.replicate 29 (.tx 0), env := { start.env with txFail := [30] } })).map
      (fun t => (t.err, t.errInfo, t.pinCS, t.T.drop 29)) = some (.transportFailure, 30, true, C 0x44) := by decide

/-- V2. -/
theorem test_dat : traceOf (.dat 0xF7) start = some [.drv .dc true, .drv .cs false, .tx 0xF7, .drv .cs true] := by decide

/-- V3: DC is driven again though it is already high. -/
theorem test_dat_again :
    (next? (exec (.dat 0x00) { start with pinDC := true })).map (fun t => (t.T, t.pinDC)) = some (D 0x00, true) := by decide

/-- "`TX(0x12)` puts `0,0,0,1,0,0,1,0` on the data wire, first to last" (95_test_vectors.md). -/
theorem test_tx_bits : sampledBits false (txBits 0x12) = [false, false, false, true, false, false, true, false] := by decide

/-! ### The panel commands -/

theorem test_swreset : traceOf .swreset start = some (C 0x12) := by decide
theorem test_drvout : traceOf .drvout start = some (C 0x01 ++ D 0xF9 ++ D 0x00 ++ D 0xA1) := by decide
theorem test_dentry : traceOf .dentry start = some (C 0x11 ++ D 0xA2) := by decide
theorem test_ramxwin : traceOf (.ramxwin 0 121) start = some (C 0x44 ++ D 0x00 ++ D 0x0F) := by decide
theorem test_ramxwin_units : traceOf (.ramxwin 8 127) start = some (C 0x44 ++ D 0x01 ++ D 0x0F) := by decide
theorem test_ramywin : traceOf (.ramywin 0 249) start = some (C 0x45 ++ D 0x00 ++ D 0x00 ++ D 0xF9 ++ D 0x00) := by decide
theorem test_ramywin_high : traceOf (.ramywin 256 295) start = some (C 0x45 ++ D 0x00 ++ D 0x01 ++ D 0x27 ++ D 0x01) := by decide
theorem test_ramxcnt : traceOf .ramxcnt start = some (C 0x4E ++ D 0x00) := by decide
theorem test_ramycnt : traceOf .ramycnt start = some (C 0x4F ++ D 0x00 ++ D 0x00) := by decide
theorem test_border : traceOf .border start = some (C 0x3C ++ D 0xA3) := by decide
theorem test_updctl1 : traceOf .updctl1 start = some (C 0x21 ++ D 0xA4 ++ D 0xA5) := by decide
theorem test_tempsen : traceOf .tempsen start = some (C 0x18 ++ D 0xA6) := by decide
theorem test_updctl2 : traceOf .updctl2 start = some (C 0x22 ++ D 0xF7) := by decide
theorem test_activate : traceOf .activate start = some (C 0x20) := by decide
theorem test_dsleep : traceOf .dsleep start = some (C 0x10 ++ D 0xA7) := by decide

/-- R150, R207: the buffer in ascending index; IDX ends at LEN. -/
theorem test_wrram :
    (next? (exec .wrram { start with len := 3, idx := 7, fb := [(0, 0xDE), (1, 0xAD), (2, 0xBF)] })).map (fun t => (t.T, t.idx)) =
      some (C 0x24 ++ D 0xDE ++ D 0xAD ++ D 0xBF, 3) := by decide

/-- R150: an empty buffer. -/
theorem test_wrram_empty : traceOf .wrram start = some (C 0x24) := by decide

/-! ### Waits and the reset pulse, one step each -/

/-- V50, S3. -/
theorem test_reset_pulse :
    (next? (step (at_ opened .init 0 0))).map (fun t => (t.T, t.ps, t.pinRST)) =
      some ([.drv .rst true, .dly 20, .drv .rst false, .dly 2, .drv .rst true, .dly 20], .resetting, true) := by decide

/-- V51: a low sample ends the wait. -/
theorem test_poll_low :
    (next? (step (at_ (answering opened [false]) .init 2 6))).map (fun t => (t.T, t.polls, t.seq)) =
      some ([.smp false], 1, .running .init 3 7) := by decide

/-- V52: a high sample, a delay, and another turn. -/
theorem test_poll_high :
    (next? (step (at_ (answering opened [true]) .init 2 6))).map (fun t => (t.T, t.polls, t.seq)) =
      some ([.smp true, .dly 10], 1, .running .init 2 8) := by decide

/-- V56: the bound is reached by the first high sample. -/
theorem test_poll_bound :
    (next? (step (at_ (bounded (answering opened [true]) 1) .init 2 6))).map (fun t => (t.T, t.err, t.errInfo, t.ps)) =
      some ([.smp true], .deviceUnresponsive, 1, .faulted) := by decide

/-- V55: with a bound of 3 the third sample, low, ends the wait without an error. -/
theorem test_poll_bound_low :
    (next? (step (at_ (bounded (answering { opened with polls := 2 } [false]) 3) .init 2 6))).map (fun t => (t.err, t.polls)) =
      some (.noError, 3) := by decide

/-! ### The frame buffer -/

/-- V40 to V45. -/
theorem test_row_bytes :
    [0, 1, 7, 8, 9, 15, 16, 17, 119, 120, 121, 122, 123, 127, 128, 129, 250, 255, 256].map rowBytesNat =
      [0, 1, 1, 1, 2, 2, 2, 3, 15, 15, 16, 16, 16, 16, 16, 17, 32, 32, 32] ∧
    [65528, 65529, 65535].map rowBytesNat = [8191, 8192, 8192] := by decide

/-- V46 to V49: the lengths, and what the rotation changes. -/
theorem test_buffer_length :
    (bufferLen (rowBytes 122) 250).toNat = 4000 ∧ (bufferLen (rowBytes 120) 250).toNat = 3750 ∧
    (bufferLen (rowBytes 9) 2).toNat = 4 ∧ (bufferLen (rowBytes 65535) 65535).toNat = 536862720 ∧
    (logicalW .r90 122 250, logicalH .r90 122 250) = (250, 122) ∧ (logicalW .r180 122 250, logicalH .r180 122 250) = (122, 250) := by
  decide

/-- S1 on a small canvas. -/
theorem test_build_buffer : (start.buildBuffer 9 2 .r0 0xFF).fb = [(0, 0xFF), (1, 0xFF), (2, 0xFF), (3, 0xFF)] := by decide

/-- The layout after V49b: `(121, 0)` in `FB[15]`, `(0, 1)` in `FB[16]`, `(121, 249)` in `FB[3999]`. -/
theorem test_pixel_index :
    pixelIndex (rowBytes 122) 121 0 = 15 ∧ pixelIndex (rowBytes 122) 0 1 = 16 ∧ pixelIndex (rowBytes 122) 121 249 = 3999 := by decide

/-- A cell written, and the cell removed from view by another write. -/
theorem test_memory_write :
    Memory.write [(1, 0x11), (5, 0x55)] 3 0x33 = [(1, 0x11), (3, 0x33), (5, 0x55)] ∧
    Memory.write [(1, 0x11)] 1 0x22 = [(1, 0x22)] ∧ Memory.wf [(3, 0), (3, 1)] = false := by decide

/-! ### The host operations -/

/-- V70. -/
theorem test_open :
    (next? (exec (.openSession 1) { start with env := { start.env with transport := [true] } })).map
      (fun t => (t.session, t.err, t.ps, t.T)) = some (.opened, .noError, .unpowered, []) := by decide

/-- V73: the identifier is checked first. -/
theorem test_open_order :
    (next? (exec (.openSession 7) { start with env := { start.env with transport := [false] } })).map
      (fun t => (t.session, t.err, t.errInfo, t.env.transport)) =
      some (.closed, .unsupportedConfiguration, 7, [false]) := by decide

/-- V74. -/
theorem test_init_closed :
    (next? (exec .init start)).map (fun t => (t.err, t.ps, t.T, t.seq)) = some (.acquisitionFailure, .unpowered, [], .idle) := by
  decide

/-- R230, R267: acceptance clears the error. -/
theorem test_init :
    (next? (exec .init { opened with ps := .faulted, err := .transportFailure, errInfo := 30 })).map
      (fun t => (t.err, t.errInfo, t.seq)) = some (.noError, 0, .running .init 0 0) := by decide

theorem test_paint : (next? (exec (.paint 0x00) ready)).map State.seq = some (.running (.paint 0x00) 0 0) := by decide

/-- V80. -/
theorem test_paint_unpowered : exec (.paint 0xFF) opened = .refused .panelNotConfigured := rfl

theorem test_clear : (next? (exec .clear ready)).map State.seq = some (.running .clear 0 0) := by decide

/-- V81. -/
theorem test_clear_asleep : exec .clear { opened with ps := .sleepRequested } = .refused .panelNotConfigured := rfl

theorem test_paint_image (bs : List Byte) (h : bs.length = 4000) :
    (next? (exec .paintImage { ready with port := bs })).map State.seq = some (.running .paintImage 0 0) := by
  simp [next?, exec, execPaintImage, State.requireIdle, State.requireConfigured, ready, opened, start, State.reset, Config.fbLen,
    State.accept, h]

theorem test_paint_image_length : exec .paintImage { ready with port := [0x5A] } = .refused (.imageLength 1) := rfl

theorem test_sleep : (next? (exec .sleep ready)).map State.seq = some (.running .sleep 0 0) := by decide

/-- V79, R177: PS becomes SleepRequested and the operation is over. -/
theorem test_sleep_end :
    (next? (step (at_ ready .sleep 1 8))).map (fun t => (t.ps, t.seq)) = some (.sleepRequested, .idle) := by decide

/-! ### Steps -/

/-- 70_reset_and_hazards.md R300: nothing happens until the host presents a word. -/
theorem test_reset_idle : step State.reset = .next State.reset := rfl

theorem test_step_reserved_word : step (presenting opened 0x600) = .refused (.reservedHostWord (.reservedOperation 0x600)) := rfl

theorem test_step_fetch_opcode :
    (next? (step (start.withFetchWord 8 0x12))).map (fun t => (t.T, t.seq)) = some (C 0x12, .idle) := by decide

theorem test_step_fetch_host_word :
    (next? (step (opened.withFetchWord 11 0x100))).map (fun t => (t.T, t.seq, t.host)) = some ([], .running .init 0 0, []) := by
  decide

/-- R74: a low sample after a refresh, and the glass shows the image RAM. -/
theorem test_glass :
    (({ panel with ram := [(0, 0x80)], busy := true, refreshing := true }.sampled false).white? cfg 0 0,
      ({ panel with ram := [(0, 0x80)], busy := true, refreshing := true }.sampled false).white? cfg 1 0) =
      (some true, some false) := by decide

/-- R73 and G3: X wraps to the window's start and Y grows. -/
theorem test_auto_increment :
    ({ panel.regs with xCounter := 0x0F, yCounterLow := 0xFF, yCounterHigh := 0x00 }.advance).xCounter = 0 ∧
    ({ panel.regs with xCounter := 0x0F, yCounterLow := 0xFF, yCounterHigh := 0x00 }.advance).yCounter = 256 := by decide

/-- U1 of 93_implementation_defined.md: a byte to a busy panel is the hazard, and nothing may be assumed of the panel then. -/
theorem test_busy_byte :
    (({ panel with busy := true }.receive cfg false 0x11).lost, ({ panel with busy := true }.receive cfg false 0x11).hazard,
      ({ panel with busy := true }.receive cfg false 0x11).ram) = (true, true, []) := by decide

/-- U1: after the reset pulse, and until the last step of INIT, nothing may be assumed of a lost panel; then its registers are those
that INIT wrote (70_reset_and_hazards.md R301). -/
theorem test_init_recovers :
    let s := { answering opened [false, false, false] with panel := Panel.reset }.accept .init
    ((next? (runFor 1 s)).map fun t => t.panel.lost) = some true ∧
    ((next? (runFor 19 s)).map fun t => t.panel.lost) = some true ∧
    ((next? (runFor 20 s)).map fun t =>
      (t.panel.lost, t.panel.regs.dataEntry, t.panel.regs.xEnd, t.panel.regs.yMaxLow)) = some (false, 0xA2, 0x0F, 0xF9) := by
  decide

/-- 41_panel_commands.md R145: the cursor byte 0 is address 0. -/
theorem test_cursor_zero : cursorX 0 = 0 := by decide

/-! ### Witnesses: for each statement with hypotheses, what meets them -/

/-- Every byte is sent when TXFAIL never holds. -/
theorem transportOk_ready (n : Nat) : ready.TransportOk n := fun _ _ => List.not_mem_nil

/-- A whole panel's buffer. -/
def fill : List Byte := List.replicate 4000 0xFF

theorem fill_length : fill.length = 4000 := List.length_replicate

/-- The buffer made. -/
def built (s : State) (op : Instr) (pos : Nat) : State :=
  { at_ s op pos 0 with w := 122, h := 250, rowb := 16, len := 4000, fb := Memory.ofBytes 0 fill }

/-- The byte that follows is failed. -/
def failing (s : State) : State := { s with env := { s.env with txFail := [1] } }

theorem witness_DecodeEncodeAgree :
    (Instr.paint 0xFF).wf = true ∧ (Instr.ramxwin 0 2040).wf = true ∧ (0 : Coord).toNat % 8 = 0 ∧ (0 : Coord).toNat < 2048 ∧
      (2040 : Coord).toNat % 8 = 0 ∧ (2040 : Coord).toNat < 2048 := by decide

theorem witness_EncodeDecodeAgree : decode .hostWord [0xFF, 2, 7] = .ok (.paint 0xFF) [7] := rfl

theorem witness_ReservedHostWordsRefused :
    ((presenting ready 0x7FF).seq = .idle ∧ (presenting ready 0x7FF).host = [{ word := 0x7FF, image := [] }] ∧
      decodeHostWord 0x7FF = .error (.reservedOperation 0x7FF)) ∧
    (ready.seq = .idle ∧ ready.ps = .configured ∧ (0x01 : Byte) ≠ 0x00 ∧ (0x01 : Byte) ≠ 0xFF) ∧
    (Instr.init.format = .hostWord ∧ (at_ ready .clear 3 0).seq = .running .clear 3 0) := by decide

theorem witness_CommandFrameGroups :
    (ready.groupOf .drvout = some [(false, 0x01), (true, 0xF9), (true, 0x00), (true, 0xA1)] ∧ ready.TransportOk 4) ∧
    ({ ready with len := 1, fb := [(0, 0x5A)] }.groupOf .wrram = some [(false, 0x24), (true, 0x5A)] ∧
      State.TransportOk { ready with len := 1, fb := [(0, 0x5A)] } 2) :=
  ⟨⟨rfl, transportOk_ready 4⟩, rfl, transportOk_ready 2⟩

theorem witness_CmdSendsCommandSymbol : ready.TransportOk 1 ∧ txCount (failing ready).T + 1 ∈ (failing ready).env.txFail :=
  ⟨transportOk_ready 1, by decide⟩

theorem witness_DatSendsDataSymbol :
    (ready.TransportOk 1 ∧ txCount (failing ready).T + 1 ∈ (failing ready).env.txFail) ∧
      ready.TransportOk ([0x00, 0xFF] : List Byte).length :=
  ⟨witness_CmdSendsCommandSymbol, transportOk_ready 2⟩

theorem witness_TransportFailureEndsTheGroup :
    let s := { at_ ready .init 8 0 with env := { ready.env with txFail := [4] } }
    s.groupOf .drvout = some [(false, 0x01), (true, 0xF9), (true, 0x00), (true, 0xA1)] ∧
      [((false, 0x01) : Sym), (true, 0xF9), (true, 0x00), (true, 0xA1)][3]? = some (true, 0xA1) ∧ s.TransportOk 3 ∧
      txCount s.T + 1 + 3 ∈ s.env.txFail ∧ s.seq ≠ .idle :=
  ⟨rfl, rfl, by unfold State.TransportOk; decide, by decide, by decide⟩

theorem witness_EveryStepKeepsFraming :
    ready.Framed ∧ (at_ ready .init 4 0).Framed ∧ ∃ t, step (at_ ready .init 4 0) = .next t :=
  ⟨⟨_, rfl, rfl, rfl, fun _ h => nomatch h⟩, ⟨_, rfl, rfl, rfl, fun _ h => nomatch h⟩, _, rfl⟩

theorem witness_CommandsWithoutData :
    ready.TransportOk 1 ∧ spansSteps .init = true ∧ (program .init)[4]? = some (.instr .swreset) ∧
      spansSteps .clear = true ∧ (program .clear)[8]? = some (.instr .activate) :=
  ⟨transportOk_ready 1, by decide⟩

theorem witness_CommandsWithOneByte :
    ready.TransportOk 2 ∧ spansSteps .init = true ∧ (program .init)[16]? = some (.instr .tempsen) ∧
      spansSteps (.paint 0x00) = true ∧ (program (.paint 0x00))[7]? = some (.instr .updctl2) ∧
      spansSteps .sleep = true ∧ (program .sleep)[0]? = some (.instr .dsleep) :=
  ⟨transportOk_ready 2, by decide⟩

theorem witness_CommandsWithConstantData : ready.TransportOk 4 ∧ ready.TransportOk 3 := ⟨transportOk_ready 4, transportOk_ready 3⟩

theorem built_bufferInv {op : Instr} {pos : Nat} (h : op ≠ .paintImage) : (built ready op pos).BufferInv := by
  intro op' pos' k c hq _
  cases hq
  refine ⟨fun _ => ⟨rfl, rfl, rfl, rfl, fun i hi => ?_⟩, fun h' => absurd h' h⟩
  change ((Memory.ofBytes 0 fill).read? i).isSome = true
  rw [Memory.read?_ofBytes_zero, List.getElem?_eq_getElem (by rw [fill_length]; exact hi)]
  rfl

theorem witness_RamXWindow :
    ready.TransportOk 3 ∧ (120 ≤ (120 : Coord).toNat ∧ (127 : Coord).toNat ≤ 127) ∧
      (spansSteps .init = true ∧ (program .init)[10]? = some (.instr (.ramxwin 0 121))) ∧
      ((built ready .clear 1).BufferInv ∧ (built ready .clear 1).micro? = some .paintXWin ∧
        (built ready .clear 1).seq = .running .clear 1 0 ∧ spansSteps .clear = true) :=
  ⟨transportOk_ready 3, by decide, by decide, built_bufferInv (by decide), rfl, rfl, rfl⟩

theorem witness_RamYWindow :
    ready.TransportOk 5 ∧ 256 ≤ (256 : Coord).toNat ∧
      (spansSteps .init = true ∧ (program .init)[11]? = some (.instr (.ramywin 0 249))) ∧
      ((built ready .clear 2).BufferInv ∧ (built ready .clear 2).micro? = some .paintYWin ∧
        (built ready .clear 2).seq = .running .clear 2 0 ∧ spansSteps .clear = true) :=
  ⟨transportOk_ready 5, by decide, by decide, built_bufferInv (by decide), rfl, rfl, rfl⟩

theorem witness_WriteRamStreamsTheBuffer :
    let s := built ready .clear 5
    s.TransportOk (1 + s.len.toNat) ∧ s.TransportOk s.len.toNat :=
  ⟨fun _ _ => List.not_mem_nil, fun _ _ => List.not_mem_nil⟩

theorem witness_BusInstructionsFrame :
    Instr.wrram.format ≠ .hostWord ∧ (∃ t, exec .wrram { ready with len := 1, fb := [(0, 0x5A)] } = .next t ∧ t.err = .noError) ∧
      ∃ t, exec .dentry (failing ready) = .next t ∧ t.err = .transportFailure :=
  ⟨by decide, ⟨_, rfl, rfl⟩, _, rfl, rfl⟩

/-- The cursor at the last address of the window, a 0x24 group being received. -/
def streaming : State :=
  { ready with
    panel := { panel with
      opcode := some 0x24, regs := { panel.regs with xCounter := 0x0F, yCounterLow := 0xF9, yCounterHigh := 0 } } }

/-- One row further the cursor is outside. -/
theorem witness_CommandsWritePanelRegisters :
    (ready.TransportOk 5 ∧ ready.panel.lost = false ∧ ready.panel.busy = false) ∧
    ({ ready with len := 0 }.len = 0 ∧ { ready with len := 1, fb := [(0, 0x5A)] }.len = 1 ∧
      ready.panel.regs.dataEntry = ready.cfg.dataEntryMode ∧ ready.panel.regs.cursorInside = true) ∧
    (streaming.TransportOk 1 ∧ streaming.panel.lost = false ∧ streaming.panel.busy = false ∧
      streaming.panel.opcode = some 0x24 ∧ streaming.panel.regs.dataEntry = streaming.cfg.dataEntryMode ∧
      streaming.panel.regs.cursorInside = true) ∧
    { streaming.panel.regs with yCounterLow := 0xFA }.cursorInside = false :=
  ⟨⟨transportOk_ready 5, rfl, rfl⟩, by decide, ⟨fun _ _ => List.not_mem_nil, by decide⟩, by decide⟩

theorem witness_PanelRecordFollowsTheTrace :
    (ready.groupOf .updctl2 = some [(false, 0x22), (true, 0xF7)] ∧ ready.TransportOk 2) ∧
    txCount (failing ready).T + 1 ∈ (failing ready).env.txFail ∧
    (at_ opened .init 0 0).seq = .running .init 0 0 ∧
    ((program .clear)[10]? = some .poll ∧ (at_ ready .clear 10 5).seq = .running .clear 10 5) ∧
    19 + 1 = (program .init).length :=
  ⟨⟨rfl, transportOk_ready 2⟩, by decide, rfl, ⟨rfl, rfl⟩, rfl⟩

/-- The last step of an INIT that found nothing to be assumed of the panel. -/
theorem witness_NothingIsAssumedUntilInitCompletes :
    let s := { at_ opened .init 19 0 with panel := { panel with lost := true, pending := some panel.regs } }
    { panel with busy := true }.busy = true ∧ s.panel.lost = true ∧ s.LostInv ∧
      ∃ t, step s = .next t ∧ t.panel.lost = false ∧ t.panel.regs.xEnd = 0x0F :=
  ⟨rfl, rfl, ⟨fun _ => ⟨rfl, rfl⟩, fun _ => rfl⟩, _, rfl, rfl, rfl⟩

theorem witness_ResetPulse : (at_ opened .init 0 0).seq = .running .init 0 0 := rfl

/-- V53 and V55 (two high samples under a bound of 3), V54, V57. -/
theorem witness_WaitIdle :
    ((program .init)[1]? = some .startWait ∧ (program .init)[2]? = some .poll ∧ 1 + 2 < (program .init).length) ∧
    ((answering opened [true, true, false]).env.busyAnswers 3 = waitAnswers 2 ∧
      ∀ n, (bounded opened 3).cfg.busyTimeoutPolls = some n → 2 < n) ∧
    ((bounded opened 3).cfg.busyTimeoutPolls = some (2 + 1) ∧
      (answering opened [true, true, true]).env.busyAnswers (2 + 1) = List.replicate (2 + 1) true) ∧
    (opened.cfg.busyTimeoutPolls = none ∧ (answering opened [true, true]).env.busyAnswers 2 = List.replicate 2 true) :=
  ⟨by decide, ⟨rfl, fun _ h => by cases h; decide⟩, ⟨rfl, rfl⟩, rfl, rfl⟩

/-- One step of each transition of the table that an operation makes by itself. -/
theorem witness_PanelStateTransitions :
    ((at_ opened .init 0 0).SequencingInv ∧ ∃ t, step (at_ opened .init 0 0) = .next t ∧ (at_ opened .init 0 0).ps ≠ t.ps) ∧
    ((at_ ready .clear 6 0).SequencingInv ∧ ∃ t, step (at_ ready .clear 6 0) = .next t ∧ (at_ ready .clear 6 0).ps ≠ t.ps) ∧
    ((at_ (failing ready) .sleep 0 0).SequencingInv ∧
      ∃ t, step (at_ (failing ready) .sleep 0 0) = .next t ∧ (at_ (failing ready) .sleep 0 0).ps ≠ t.ps) :=
  ⟨⟨⟨rfl, fun _ => rfl, rfl, rfl, by decide, .inl ⟨rfl, rfl⟩, rfl⟩, _, rfl, by decide⟩,
    ⟨⟨rfl, fun _ => rfl, rfl, rfl, by decide, .inr rfl, rfl⟩, _, rfl, by decide⟩,
    ⟨rfl, fun _ => rfl, rfl, rfl, by decide, .inr rfl, rfl⟩, _, rfl, by decide⟩

theorem witness_EveryStepKeepsSequencing :
    (presenting ready 0x300).SequencingInv ∧ (∃ t, step (presenting ready 0x300) = .next t ∧ t.seq = .running .clear 0 0) ∧
    (at_ ready .sleep 1 8).SequencingInv ∧ ∃ t, step (at_ ready .sleep 1 8) = .next t :=
  ⟨⟨rfl, fun _ => rfl, rfl⟩, ⟨_, rfl, rfl⟩,
    ⟨rfl, fun _ => rfl, rfl, rfl, by decide, .inr rfl, rfl⟩, _, rfl⟩

theorem witness_RunningOperationsStep : (at_ ready .clear 6 0).SequencingInv ∧ (at_ ready .clear 6 0).seq ≠ .idle :=
  ⟨⟨rfl, fun _ => rfl, rfl, rfl, by decide, .inr rfl, rfl⟩, by decide⟩

theorem witness_OnlyTableOpcodesAreSent :
    (at_ ready .sleep 0 0).SequencingInv ∧ ∃ t, step (at_ ready .sleep 0 0) = .next t :=
  ⟨⟨rfl, fun _ => rfl, rfl, rfl, by decide, .inr rfl, rfl⟩, _, rfl⟩

theorem witness_WaitsArePlaced : spansSteps .init = true ∧ spansSteps (.paint 0xFF) = true := by decide

theorem witness_BuildBuffer :
    ((at_ ready .clear 0 0).seq = .running .clear 0 0 ∧ (program .clear)[0]? = some (.build 0xFF)) ∧
    (at_ ready .paintImage 0 0).seq = .running .paintImage 0 0 ∧ (program .paintImage)[0]? = some (.build 0xFF) := by decide

theorem witness_ImageTakesThePlaceOfTheFill :
    let s := { built ready .paintImage 1 with port := fill }
    s.seq = .running .paintImage 1 0 ∧ s.port.length = 4000 ∧ s.len = 4000 :=
  ⟨rfl, fill_length, rfl⟩

/-- The last pixel of the panel; two columns of one byte. -/
theorem witness_PixelLayout :
    ((121 : Coord) < 122 ∧ (249 : Coord) < 250) ∧
    (pixelIndex (rowBytes 122) 121 249 = pixelIndex (rowBytes 122) 121 249 ∧ pixelBit true 121 = pixelBit true 121) ∧
    pixelIndex (rowBytes 122) 120 249 = pixelIndex (rowBytes 122) 121 249 := by decide

theorem witness_EveryStepKeepsTheBufferWritten :
    ((built ready .clear 3).BufferInv ∧ ∃ t, step (built ready .clear 3) = .next t) ∧
    (built ready .clear 5).SequencingInv ∧ (built ready .clear 5).BufferInv ∧
      (built ready .clear 5).micro? = some (.instr .wrram) :=
  ⟨⟨built_bufferInv (by decide), _, rfl⟩, ⟨rfl, fun _ => rfl, rfl, rfl, by decide, .inr rfl, rfl⟩, built_bufferInv (by decide), rfl⟩

/-- The last step of a SLEEP with a buffer that a build left. -/
theorem witness_EveryStepKeepsNoIdleBuffer :
    let s := { at_ ready .sleep 1 8 with fb := [(0, 0x5A)] }
    s.NoIdleBuffer ∧ ∃ t, step s = .next t ∧ t.seq = .idle ∧ t.fb = [] :=
  ⟨(fun h => nomatch h), _, rfl, rfl, rfl⟩

theorem witness_OpenOutcomes :
    (start.seq = .idle ∧ start.session = .closed ∧ (7 : Byte) ≠ start.cfg.modelIdProfile0 ∧ (1 : Byte) = start.cfg.modelIdProfile0) ∧
    ({ start.env with transport := [false] }.transportAnswer = false ∧
      { start.env with transport := [true] }.transportAnswer = true) ∧
    (opened.seq = .idle ∧ opened.session = .opened) ∧ (at_ opened .init 1 6).seq ≠ .idle := by decide

theorem witness_OpenConsultsTheTransport : start.seq = .idle ∧ start.session = .closed := ⟨rfl, rfl⟩

theorem witness_AcquisitionFailure :
    (start.seq = .idle ∧ start.session = .closed ∧ (1 : Byte) = start.cfg.modelIdProfile0 ∧
      { start.env with transport := [false] }.transportAnswer = false) ∧
    ∃ t, step (presenting start 0x100) = .next t ∧ (presenting start 0x100).err ≠ .acquisitionFailure ∧
      t.err = .acquisitionFailure :=
  ⟨by decide, _, rfl, by decide, rfl⟩

theorem witness_OperationsWithoutAMeaning : (Instr.paint 0x7F).format = .hostWord ∧ Instr.sleep.format = .hostWord := by decide

theorem witness_AcceptanceFrame :
    Instr.clear.format = .hostWord ∧ (∃ t, exec .clear ready = .next t) ∧ ∃ t, exec (.openSession 7) start = .next t :=
  ⟨rfl, ⟨_, rfl⟩, _, rfl⟩

/-- P4, with the smallest bound that lets it complete. -/
theorem witness_InitCompletes :
    let s := bounded (answering opened [true, true, false, true, false, false]) 3
    s.seq = .idle ∧ s.session = .opened ∧ s.TransportOk 27 ∧
      s.env.busyAnswers (2 + 1 + 0 + 3) = waitAnswers 2 ++ waitAnswers 1 ++ waitAnswers 0 ∧
      ∀ n, s.cfg.busyTimeoutPolls = some n → 2 < n ∧ 1 < n ∧ 0 < n :=
  ⟨rfl, rfl, fun _ _ => List.not_mem_nil, rfl, fun _ h => by cases h; decide⟩

theorem witness_InitConfiguresThePanel :
    let s := answering { opened with panel := Panel.reset } [false, false, false]
    s.seq = .idle ∧ s.session = .opened ∧ s.TransportOk 27 ∧
      s.env.busyAnswers (0 + 0 + 0 + 3) = waitAnswers 0 ++ waitAnswers 0 ++ waitAnswers 0 ∧
      ∀ n, s.cfg.busyTimeoutPolls = some n → 0 < n ∧ 0 < n ∧ 0 < n :=
  ⟨rfl, rfl, fun _ _ => List.not_mem_nil, rfl, fun _ h => nomatch h⟩

theorem witness_PaintAndClearComplete :
    let s := bounded (answering ready [true, false]) 2
    s.seq = .idle ∧ s.ps = .configured ∧ s.TransportOk 4017 ∧ s.env.busyAnswers (1 + 1) = waitAnswers 1 ∧
      ∀ n, s.cfg.busyTimeoutPolls = some n → 1 < n :=
  ⟨rfl, rfl, fun _ _ => List.not_mem_nil, rfl, fun _ h => by cases h; decide⟩

theorem witness_PaintImageCompletes :
    let s := { answering ready [false] with port := fill }
    s.seq = .idle ∧ s.ps = .configured ∧ s.port.length = 4000 ∧ s.TransportOk 4017 ∧ s.env.busyAnswers (0 + 1) = waitAnswers 0 ∧
      ∀ n, s.cfg.busyTimeoutPolls = some n → 0 < n :=
  ⟨rfl, rfl, fill_length, fun _ _ => List.not_mem_nil, rfl, fun _ h => nomatch h⟩

theorem witness_SleepCompletes : ready.seq = .idle ∧ ready.ps = .configured ∧ ready.TransportOk 2 :=
  ⟨rfl, rfl, transportOk_ready 2⟩

/-- A paint that completes without an error, from acceptance: the build, and the shared run of `runFor_showBuffer`. -/
theorem witness_PaintsHaveNoHiddenState :
    let s := answering ready [false]
    (∃ u t n, exec (.paint 0x00) s = .next u ∧ s.host = [] ∧ runFor n u = .next t ∧ t.seq = .idle ∧ t.err = .noError) ∧
    (∃ u t n, exec .clear s = .next u ∧ s.host = [] ∧ runFor n u = .next t ∧ t.seq = .idle ∧ t.err = .noError) ∧
    ∃ u t n, exec .init (answering opened [false, false, false]) = .next u ∧ opened.host = [] ∧ runFor n u = .next t ∧
      t.seq = .idle ∧ t.err = .noError := by
  have paint : ∀ (op : Instr) (c : Byte), (program op)[0]? = some (.build c) → (program op).drop 1 = showBuffer →
      1 < (program op).length →
      ∃ t n, runFor n ((answering ready [false]).accept op) = .next t ∧ t.seq = .idle ∧ t.err = .noError := by
    intro op c hb hs hl
    have h := runFor_of_step (step_build ((answering ready [false]).accept op) rfl hb hl)
    generalize hd : List.replicate 4000 c = data at h
    obtain ⟨n, hn⟩ := runFor_trans h (runFor_showBuffer _ op 1 0 0 (data := data) (by rw [← hd, List.length_replicate]) hs rfl rfl rfl
      rfl rfl rfl (fun _ _ => List.not_mem_nil) rfl (fun _ h => nomatch h))
    exact ⟨_, n, hn, rfl, rfl⟩
  refine ⟨?_, ?_, ?_⟩
  · obtain ⟨t, n, h⟩ := paint (.paint 0x00) 0x00 rfl rfl (by decide)
    exact ⟨_, t, n, rfl, rfl, h⟩
  · obtain ⟨t, n, h⟩ := paint .clear 0xFF rfl rfl (by decide)
    exact ⟨_, t, n, rfl, rfl, h⟩
  · have h : (next? (runFor 20 ((answering opened [false, false, false]).accept .init))).map (fun t => (t.seq, t.err)) =
        some (.idle, .noError) := by decide
    cases hr : runFor 20 ((answering opened [false, false, false]).accept .init) with
    | next t =>
      rw [hr] at h
      simp only [next?, Option.map_some, Option.some.injEq, Prod.mk.injEq] at h
      exact ⟨_, t, 20, rfl, rfl, hr, h⟩
    | fault f => rw [hr] at h; cases h
    | refused f => rw [hr] at h; cases h

theorem witness_GlassShowsTheBuffer :
    let s := answering ready [false]
    s.seq = .idle ∧ s.ps = .configured ∧ s.TransportOk 4017 ∧ s.env.busyAnswers (0 + 1) = waitAnswers 0 ∧
      (∀ n, s.cfg.busyTimeoutPolls = some n → 0 < n) ∧ s.panel.lost = false ∧ s.panel.busy = false ∧
      s.panel.regs.dataEntry = s.cfg.dataEntryMode ∧ (121 : Coord).toNat < 122 ∧ (249 : Coord).toNat < 250 :=
  ⟨rfl, rfl, fun _ _ => List.not_mem_nil, rfl, (fun _ h => nomatch h), rfl, rfl, rfl, by decide, by decide⟩

theorem witness_ErrorEntry :
    (∃ t, step (at_ (bounded (answering opened [true]) 1) .init 2 6) = .next t ∧ t.err = .deviceUnresponsive) ∧
    (∃ t, step (at_ (failing ready) .clear 3 0) = .next t ∧ t.err = .transportFailure) ∧
    ∃ t, exec (.openSession 7) start = .next t ∧ t.err ≠ .noError :=
  ⟨⟨_, rfl, rfl⟩, ⟨_, rfl, rfl⟩, _, rfl, by decide⟩

theorem witness_RecoveryIsByInit :
    (State.SequencingInv { opened with ps := .faulted } ∧ opened.seq = .idle) ∧
    (∃ t, exec .clear { ready with err := .transportFailure } = .next t ∧ t.seq ≠ .idle) ∧
    ∃ t, exec (.openSession 7) start = .next t ∧ t.err ≠ .noError :=
  ⟨⟨⟨rfl, fun _ => rfl, rfl⟩, rfl⟩, ⟨_, rfl, by decide⟩, _, rfl, by decide⟩

theorem witness_StepRunsTheDecodedInstruction :
    ((presenting ready 0x500).seq = .idle ∧ (presenting ready 0x500).host = [{ word := 0x500, image := [] }] ∧
      decodeHostWord 0x500 = .ok .sleep) ∧
    ((program .init)[8]? = some (.instr .drvout) ∧ ∃ t, exec .drvout (at_ ready .init 8 0) = .next t) ∧
    (ready.seq = .idle ∧ ready.host = []) ∧
    (decodeTableWord 11 0x2FF = some (.paint 0xFF) ∧ decodeTableWord 9 0x1F7 = some (.dat 0xF7) ∧
      ∃ t, exec (.dat 0xF7) { ready with seq := .running (.dat 0xF7) 0 0 } = .next t) :=
  ⟨⟨rfl, rfl, rfl⟩, ⟨rfl, _, rfl⟩, ⟨rfl, rfl⟩, rfl, rfl, _, rfl⟩

theorem witness_EveryStepKeepsParametersTraceAndSession :
    ready.session = .opened ∧ ∃ t, step (at_ ready .clear 3 0) = .next t := ⟨rfl, _, rfl⟩

theorem witness_EveryStepKeepsMemoriesCanonical :
    State.MemoriesCanonical { at_ ready .init 8 0 with fb := [(0, 0x5A), (2, 0x5A)] } ∧
      ∃ t, step { at_ ready .init 8 0 with fb := [(0, 0x5A), (2, 0x5A)] } = .next t := ⟨⟨rfl, rfl, rfl⟩, _, rfl⟩

theorem witness_OnlyInitDrivesReset : ∃ t, step (at_ opened .init 0 0) = .next t ∧ t.pinRST ≠ (at_ opened .init 0 0).pinRST :=
  ⟨_, rfl, by decide⟩

end Sys2Proof.Tests
end

section
/-! O51: what a later state keeps of an earlier one, and that every operation of the machine keeps it. -/

namespace Sys2Proof.Machine

/-- `t` comes later in the life of the same engine than `s`, as far as the parameters, TXFAIL, the trace and the session tell
(10_state.md R27, R36, R38). -/
structure Continues (s t : State) : Prop where
  cfg : t.cfg = s.cfg
  txFail : t.env.txFail = s.env.txFail
  trace : s.T <+: t.T
  session : s.session = .opened → t.session = .opened

theorem Continues.refl (s : State) : Continues s s := ⟨rfl, rfl, List.prefix_rfl, id⟩

theorem Continues.trans {s t u : State} (h : Continues s t) (h' : Continues t u) : Continues s u :=
  ⟨h'.cfg.trans h.cfg, h'.txFail.trans h.txFail, h.trace.trans h'.trace, h'.session ∘ h.session⟩

theorem continues_of_append {s t : State} {ev : List Event} (hc : t.cfg = s.cfg) (he : t.env.txFail = s.env.txFail)
    (hT : t.T = s.T ++ ev) (hs : t.session = s.session) : Continues s t :=
  ⟨hc, he, ⟨ev, hT.symm⟩, hs.trans⟩

theorem continues_of_same {s t : State} (hc : t.cfg = s.cfg) (he : t.env.txFail = s.env.txFail) (hT : t.T = s.T)
    (hs : t.session = s.session) : Continues s t :=
  continues_of_append (ev := []) hc he (by rw [hT, List.append_nil]) hs

/-! ### The operations that answer from the environment, append events or open the session -/

@[simp] theorem Env.afterBusy_txFail (e : Env) : e.afterBusy.txFail = e.txFail := by
  unfold Env.afterBusy; split <;> rfl

@[simp] theorem Env.afterTransport_txFail (e : Env) : e.afterTransport.txFail = e.txFail := by
  unfold Env.afterTransport; split <;> rfl

/-- A codec call appends its frame, whether the byte is sent or the transport fails it. -/
theorem State.sendByte_continues (s : State) (dc : Bool) (b : Byte) : Continues s (s.sendByte dc b).state := by
  rw [s.sendByte_state]
  split <;> exact continues_of_append (ev := frames [(dc, b)]) (by simp) (by simp) (by simp) (by simp)

theorem State.resetPulse_continues (s : State) : Continues s s.resetPulse :=
  continues_of_append s.resetPulse_cfg (by rw [s.resetPulse_env]) s.resetPulse_T s.resetPulse_session

theorem State.pollOnce_continues (s : State) : Continues s s.pollOnce :=
  continues_of_append rfl s.env.afterBusy_txFail s.pollOnce_T rfl

theorem State.delay_continues (s : State) (n : Nat) : Continues s (s.delay n) :=
  continues_of_append rfl rfl (s.delay_T n) rfl

theorem State.consultTransport_continues (s : State) : Continues s s.consultTransport :=
  continues_of_same rfl s.env.afterTransport_txFail rfl rfl

theorem State.opened_continues (s : State) : Continues s { s with session := .opened } :=
  ⟨rfl, rfl, List.prefix_rfl, fun _ => rfl⟩

/-- Every operation of the machine leads to a later state of the same engine. -/
theorem kept_continues (s₀ : State) : Kept (Continues s₀) where
  byte s dc b h := h.trans (s.sendByte_continues dc b)
  reset s h := h.trans s.resetPulse_continues
  pollOnce s h := h.trans s.pollOnce_continues
  delay s n h := h.trans (s.delay_continues n)
  transport s h := h.trans s.consultTransport_continues
  opened s h := h.trans s.opened_continues
  idx _ _ h := h.trans (continues_of_same rfl rfl rfl rfl)
  present _ _ _ h := h.trans (continues_of_same rfl rfl rfl rfl)
  accept _ _ h := h.trans (continues_of_same rfl rfl rfl rfl)
  finish _ h := h.trans (continues_of_same rfl rfl rfl rfl)
  raise _ _ _ h := h.trans (continues_of_same rfl rfl rfl rfl)
  moved _ _ _ _ h := h.trans (continues_of_same rfl rfl rfl rfl)
  setPS _ _ h := h.trans (continues_of_same rfl rfl rfl rfl)
  build _ _ _ _ _ h := h.trans (continues_of_same rfl rfl rfl rfl)
  load _ h := h.trans (continues_of_same rfl rfl rfl rfl)
  startWait _ h := h.trans (continues_of_same rfl rfl rfl rfl)

theorem step_continues {s t : State} (h : step s = .next t) : Continues s t :=
  (kept_continues s).step (Continues.refl s) h

/-- Settles O51: a step composes operations that each continue the state they are given. -/
theorem everyStepKeepsParametersTraceAndSession : Obligations.EveryStepKeepsParametersTraceAndSession := by
  intro s t h
  obtain ⟨hcfg, htx, ⟨ev, hT⟩, hsession⟩ := step_continues h
  exact ⟨hcfg, htx, ⟨ev, hT.symm⟩, hsession⟩

end Sys2Proof.Machine
end

section
/-! The two ways a micro-operation of the bus ends: all its symbols sent, or the state after the byte that the transport
failed. One inversion lemma for all sixteen, from which frames and invariants follow. -/

namespace Sys2Proof.Machine

/-! ### The failed byte -/

theorem Seq.emitted_after {q : Seq} {n : Nat} (hq : q ≠ .idle) (hn : 0 < n) : (q.after n).emitted = true := by
  cases q with
  | idle => exact absurd rfl hq
  | running op pos k => simp; omega

/-- Error entry after a closed frame, in the terms of the statements. -/
theorem State.raise_afterSyms_singleton (s : State) (x : Sym) :
    ((s.afterSyms [x]).setPanel s.panel.missed).raise .transportFailure (txCount s.T + 1) = s.afterFailedByte x.1 x.2 := by
  rw [s.afterSyms_singleton]
  cases hq : s.seq <;> simp [State.raise, State.setPanel, State.afterFailedByte, hq]

theorem State.sendByte_failed (s : State) (dc : Bool) (b : Byte) (h : s.nextTxFails = true) :
    s.sendByte dc b = .raised (s.afterFailedByte dc b) := by
  rw [s.sendByte_fail dc b h, s.raise_afterSyms_singleton (dc, b)]

/-- The failing byte of a stream ends it. -/
theorem State.sendSyms_failed (s : State) (xs : List Sym) (j : Nat) (x : Sym) (hj : xs[j]? = some x) (hok : s.TransportOk j)
    (hf : txCount s.T + 1 + j ∈ s.env.txFail) :
    s.sendSyms xs = .raised ((s.afterSyms (xs.take j)).afterFailedByte x.1 x.2) := by
  have hl : j < xs.length := (List.getElem?_eq_some_iff.mp hj).1
  rw [s.sendSyms_fail xs j x hj hok hf, List.take_add_one, hj, Option.toList_some, ← State.afterSyms_append,
    ← State.raise_afterSyms_singleton]
  simp [Nat.min_eq_left hl.le, Nat.add_right_comm]

/-- The loop of STREAM_BUFFER, one byte failed: those before it have been sent. -/
theorem State.stream_failed (s : State) (n j : Nat) (hj : j < n) (hok : s.TransportOk j)
    (hf : txCount s.T + 1 + j ∈ s.env.txFail) (hw : s.idx.toNat + n < 2 ^ 29) :
    ∃ ix, State.stream n s = .raised (((s.afterSyms ((List.range' s.idx.toNat j).map fun i => (true, s.memRead i))).setIdx
      ix).afterFailedByte true (s.memRead (s.idx.toNat + j))) := by
  induction n generalizing s j with
  | zero => omega
  | succ n ih =>
    cases j with
    | zero =>
      have h0 : s.nextTxFails = true := by simpa [State.nextTxFails_iff] using hf
      exact ⟨s.idx, by simp only [State.stream, s.sendByte_failed _ _ h0]; rfl⟩
    | succ j =>
      obtain ⟨h0, h1⟩ := (s.transportOk_succ j (true, s.memRead s.idx.toNat)).mp hok
      have hi : (s.idx + 1).toNat = s.idx.toNat + 1 := by simp; omega
      obtain ⟨ix, he⟩ := ih ((s.afterSyms [(true, s.memRead s.idx.toNat)]).setIdx (s.idx + 1)) j (by omega)
        ((State.transportOk_congr rfl rfl).mpr h1)
        (by simpa [show txCount s.T + 1 + 1 + j = txCount s.T + 1 + (j + 1) by omega] using hf)
        (by simp only [State.setIdx_idx, hi]; omega)
      refine ⟨ix, ?_⟩
      simp only [State.stream, s.sendByte_ok _ _ h0, State.afterSyms_idx, he]
      simp only [State.setIdx_idx, hi, State.memRead_setIdx, State.memRead_afterSyms, State.afterSyms_setIdx,
        State.setIdx_setIdx, State.afterSyms_append]
      rw [List.range'_succ, show s.idx.toNat + 1 + j = s.idx.toNat + (j + 1) by omega]
      rfl

/-! ### The symbols of a micro-operation -/

/-- The instruction sends the symbols `xs`: those of its command frame group, or the one symbol of a codec operation. -/
def State.Sends (s : State) (i : Instr) (xs : List Sym) : Prop :=
  s.groupOf i = some xs ∨ (∃ b, i = .cmd b ∧ xs = [(false, b)]) ∨ ∃ b, i = .dat b ∧ xs = [(true, b)]

section
variable {s : State} {i : Instr} {xs : List Sym}

theorem State.exists_sends (s : State) (hi : i.format ≠ .hostWord) : ∃ xs, s.Sends i xs := by
  unfold State.Sends
  cases i with
  | cmd b => exact ⟨_, .inr (.inl ⟨b, rfl, rfl⟩)⟩
  | dat b => exact ⟨_, .inr (.inr ⟨b, rfl, rfl⟩)⟩
  | openSession m => exact absurd rfl hi
  | init => exact absurd rfl hi
  | paint c => exact absurd rfl hi
  | clear => exact absurd rfl hi
  | paintImage => exact absurd rfl hi
  | sleep => exact absurd rfl hi
  | _ => exact ⟨_, .inl rfl⟩

theorem State.sendSyms_singleton (s : State) (x : Sym) : s.sendSyms [x] = s.sendByte x.1 x.2 := by
  simp only [State.sendSyms]
  cases s.sendByte x.1 x.2 <;> rfl

/-- Every micro-operation but WRRAM is a stream of symbols. -/
theorem exec_eq_sendSyms (hw : i ≠ .wrram) (hx : s.Sends i xs) : exec i s = .next (s.sendSyms xs).state := by
  rcases hx with hx | ⟨b, rfl, rfl⟩ | ⟨b, rfl, rfl⟩
  · cases i with
    | wrram => exact absurd rfl hw
    | ramxwin a b =>
      obtain rfl := Option.some.inj hx
      simp only [← xByte_ofNat]
      rfl
    | ramywin a b =>
      obtain rfl := Option.some.inj hx
      simp only [← yLow_ofNat, ← yHigh_ofNat]
      rfl
    | _ => cases hx <;> rfl
  · rw [s.sendSyms_singleton]; rfl
  · rw [s.sendSyms_singleton]; rfl

theorem State.sends_wrram (hx : s.Sends .wrram xs) : xs = (false, 0x24) :: s.bufferBytes.map fun b => (true, b) := by
  rcases hx with hx | ⟨b, hb, _⟩ | ⟨b, hb, _⟩
  · exact (Option.some.inj hx).symm
  · cases hb
  · cases hb

theorem State.bufferBytes_length (s : State) : s.bufferBytes.length = s.len.toNat := by simp [State.bufferBytes]

/-- All symbols of a micro-operation sent; IDX is written by WRRAM alone. -/
theorem exec_sent (hx : s.Sends i xs) (h : s.TransportOk xs.length) :
    ∃ ix, (i ≠ .wrram → ix = s.idx) ∧ exec i s = .next ((s.afterSyms xs).setIdx ix) := by
  by_cases hw : i = .wrram
  · subst hw
    obtain rfl := State.sends_wrram hx
    exact ⟨s.len, fun h => absurd rfl h, exec_wrram (by simpa [State.bufferBytes_length] using h)⟩
  · refine ⟨s.idx, fun _ => rfl, ?_⟩
    rw [exec_eq_sendSyms hw hx, s.sendSyms_ok xs h, ← State.afterSyms_setIdx]
    rfl

/-- The transport fails symbol `j` of a micro-operation, and none before it. -/
theorem exec_failed {j : Nat} {x : Sym} (hx : s.Sends i xs) (hj : xs[j]? = some x) (hok : s.TransportOk j)
    (hf : txCount s.T + 1 + j ∈ s.env.txFail) :
    ∃ ix, (i ≠ .wrram → ix = s.idx) ∧
      exec i s = .next (((s.afterSyms (xs.take j)).setIdx ix).afterFailedByte x.1 x.2) := by
  by_cases hw : i = .wrram
  · subst hw
    obtain rfl := State.sends_wrram hx
    cases j with
    | zero =>
      obtain rfl : (false, 0x24) = x := by simpa using hj
      refine ⟨s.idx, fun h => absurd rfl h, ?_⟩
      simp only [exec, execWrram, s.sendByte_failed _ _ ((s.nextTxFails_iff).mpr (by simpa using hf))]
      rfl
    | succ j =>
      obtain ⟨h0, h1⟩ := (s.transportOk_succ j (false, 0x24)).mp hok
      have hl : j < s.len.toNat := by
        have := (List.getElem?_eq_some_iff.mp hj).1
        simp only [List.length_cons, List.length_map, State.bufferBytes_length] at this
        omega
      obtain ⟨ix, he⟩ := State.stream_failed ((s.afterSyms [(false, 0x24)]).setIdx 0) s.len.toNat j hl
        ((State.transportOk_congr rfl rfl).mpr h1)
        (by simpa [show txCount s.T + 1 + 1 + j = txCount s.T + 1 + (j + 1) by omega] using hf)
        (by simpa using s.len.isLt)
      refine ⟨ix, fun h => absurd rfl h, ?_⟩
      have hb : (s.bufferBytes.map fun b => (true, b)).take j = (List.range j).map fun i => (true, s.memRead i) := by
        simp [State.bufferBytes, ← List.map_take, List.take_range, Nat.min_eq_left hl.le]
      have hx' : x = (true, s.memRead j) := by
        simp [State.bufferBytes, hl] at hj
        exact hj.symm
      simp only [exec, execWrram, s.sendByte_ok _ _ h0, State.streamBuffer, State.afterSyms_len, he, Sent.state,
        List.take_succ_cons, hb, hx']
      simp [State.afterSyms_append, List.range_eq_range']
  · refine ⟨s.idx, fun _ => rfl, ?_⟩
    rw [exec_eq_sendSyms hw hx, s.sendSyms_failed xs j x hj hok hf, ← State.afterSyms_setIdx]
    rfl

/-- The transport sends the next `n` bytes, or there is a first one that it fails. -/
theorem State.transportOk_or_fails (s : State) (n : Nat) :
    s.TransportOk n ∨ ∃ j < n, s.TransportOk j ∧ txCount s.T + 1 + j ∈ s.env.txFail := by
  induction n with
  | zero => exact .inl s.transportOk_zero
  | succ n ih =>
    rcases ih with h | ⟨j, hj, h⟩
    · by_cases hf : txCount s.T + 1 + n ∈ s.env.txFail
      · exact .inr ⟨n, by omega, h, hf⟩
      · refine .inl fun j hj => ?_
        rcases Nat.lt_succ_iff_lt_or_eq.mp hj with hj | rfl
        · exact h j hj
        · exact hf
    · exact .inr ⟨j, by omega, h⟩

/-- The two ways a micro-operation of the bus ends. -/
theorem exec_bus_cases {t : State} (hi : i.format ≠ .hostWord) (h : exec i s = .next t) :
    ∃ ys ix, (i ≠ .wrram → ix = s.idx) ∧
      (t = (s.afterSyms ys).setIdx ix ∨ ∃ x : Sym, t = ((s.afterSyms ys).setIdx ix).afterFailedByte x.1 x.2) := by
  obtain ⟨xs, hx⟩ := s.exists_sends hi
  rcases s.transportOk_or_fails xs.length with hok | ⟨j, hj, hok, hf⟩
  · obtain ⟨ix, hix, he⟩ := exec_sent hx hok
    rw [h] at he
    cases he
    exact ⟨_, ix, hix, .inl rfl⟩
  · obtain ⟨ix, hix, he⟩ := exec_failed hx (List.getElem?_eq_getElem hj) hok hf
    rw [h] at he
    cases he
    exact ⟨_, ix, hix, .inr ⟨_, rfl⟩⟩

end

/-! ### The ways a micro-step answers -/

/-- What a micro-step of an expansion can make of `s`. -/
inductive MicroStep (s : State) : Micro → State → Prop where
  | resetPulse : MicroStep s .resetPulse s.resetPulse.advance
  | startWait : MicroStep s .startWait s.startWait.advance
  | pollLow (hb : s.env.busyAnswer = false) : MicroStep s .poll s.pollOnce.advance
  | pollTimedOut (hb : s.env.busyAnswer = true) (ht : s.pollOnce.timedOut = true) :
      MicroStep s .poll (s.pollOnce.raise .deviceUnresponsive s.pollOnce.polls)
  | pollHigh (hb : s.env.busyAnswer = true) : MicroStep s .poll (s.pollOnce.delay Config.tPoll)
  | enter (p : PanelState) : MicroStep s (.enter p) (s.setPS p).advance
  | build (c : Byte) : MicroStep s (.build c) (s.buildBuffer Config.panelW Config.panelH s.cfg.rot c).advance
  | loadImage : MicroStep s .loadImage s.loadImage.advance
  | sent {m : Micro} (hm : ∀ c, m ≠ .build c) (ys : List Sym) (ix : BitVec 29) :
      MicroStep s m ((s.afterSyms ys).setIdx ix).advance
  | failed {m : Micro} (ys : List Sym) (ix : BitVec 29) (x : Sym) :
      MicroStep s m (((s.afterSyms ys).setIdx ix).afterFailedByte x.1 x.2)

/-- A micro-step that runs a micro-operation of the bus. -/
theorem microStep_of_exec {m : Micro} {i : Instr} {s t : State} (hm : ∀ c, m ≠ .build c) (hi : i.format ≠ .hostWord)
    (h : continueWith (exec i s) = .next t) : MicroStep s m t := by
  obtain ⟨u, hu, rfl⟩ := continueWith_next h
  obtain ⟨ys, ix, -, rfl | ⟨x, rfl⟩⟩ := exec_bus_cases hi hu
  · exact .sent hm ys ix
  · rw [State.advance_idle _ rfl]
    exact .failed ys ix x

theorem microStep_of_runMicro {op : Instr} {pos : Nat} {m : Micro} {s t : State} (hm : (program op)[pos]? = some m)
    (h : runMicro m s = .next t) : MicroStep s m t := by
  cases m with
  | resetPulse => cases h; exact .resetPulse
  | startWait => cases h; exact .startWait
  | poll =>
    cases h
    unfold State.poll
    split
    case isTrue hb => exact .pollLow hb
    case isFalse hb =>
      have hb : s.env.busyAnswer = true := by simpa using hb
      split
      case isTrue ht => exact .pollTimedOut hb ht
      case isFalse => exact .pollHigh hb
  | enter p => cases h; exact .enter p
  | build c => cases h; exact .build c
  | loadImage => cases h; exact .loadImage
  | paintXWin => exact microStep_of_exec nofun (i := .ramxwin 0 (s.w - 1)) (by simp [Instr.format]) h
  | paintYWin => exact microStep_of_exec nofun (i := .ramywin 0 (s.h - 1)) (by simp [Instr.format]) h
  | instr i => exact microStep_of_exec nofun (program_instr hm).1 h

end Sys2Proof.Machine
end

section
/-! O24, O26: the sequencing invariant, one lemma for the way each micro-step leaves it, and that no running operation stops. -/

namespace Sys2Proof.Machine

/-! ### A running operation under the invariant -/

/-- The invariant at the micro-step `m` of a running operation, with the value of PS that `m` leaves. -/
structure State.Sequenced (s : State) (op : Instr) (pos : Nat) (m : Micro) : Prop where
  spans : spansSteps op = true
  session : s.session = .opened
  hazard : s.panel.hazard = false
  psAfter : Machine.psAfter .configured ((program op).take (pos + 1)) = Machine.psAfter s.ps [m]
  inOrder : Machine.inOrder s.panel.busy s.ps (m :: (program op).drop (pos + 1)) = true

theorem State.SequencingInv.sequenced {s : State} (h : s.SequencingInv) {op : Instr} {pos k : Nat} {m : Micro}
    (hq : s.seq = .running op pos k) (hm : (program op)[pos]? = some m) : s.Sequenced op pos m := by
  obtain ⟨hz, -, h⟩ := h
  rw [hq] at h
  obtain ⟨hsp, hses, hpos, hps, hord⟩ := h
  have hget : (program op)[pos] = m := (List.getElem?_eq_some_iff.mp hm).2
  refine ⟨hsp, hses, hz, ?_, by rwa [List.drop_eq_getElem_cons hpos, hget] at hord⟩
  rw [List.take_add_one, hm, Option.toList_some, psAfter_append]
  rcases hps with ⟨rfl, rfl⟩ | hps
  · obtain rfl : Micro.resetPulse = m := Option.some.inj hm
    rfl
  · rw [hps]

/-- A running operation stands in its expansion. -/
theorem State.SequencingInv.micro {s : State} (h : s.SequencingInv) {op : Instr} {pos k : Nat}
    (hq : s.seq = .running op pos k) : ∃ m, (program op)[pos]? = some m := by
  obtain ⟨-, -, h⟩ := h
  rw [hq] at h
  obtain ⟨-, -, hpos, -⟩ := h
  exact ⟨_, List.getElem?_eq_getElem hpos⟩

/-- Moving on past `m` keeps the invariant: the next micro-step, or the end of the operation. -/
theorem State.Sequenced.advance {s u : State} {op : Instr} {pos k : Nat} {m : Micro} (h : s.Sequenced op pos m)
    (hq : u.seq = .running op pos k) (hs : u.session = s.session) (hz : u.panel.hazard = false)
    (hp : u.ps = Machine.psAfter s.ps [m]) (ho : Machine.inOrder u.panel.busy u.ps ((program op).drop (pos + 1)) = true) :
    u.advance.SequencingInv := by
  have hopen : u.session = .opened := hs.trans h.session
  by_cases hl : pos + 1 < (program op).length
  · rw [u.advance_more hq hl]
    exact ⟨hz, fun _ => hopen, h.spans, hopen, hl, .inr (hp.trans h.psAfter.symm), ho⟩
  · rw [u.advance_last hq hl]
    rw [List.drop_eq_nil_of_le (by omega)] at ho
    refine ⟨?_, fun _ => hopen, ?_⟩
    · simp only [State.finish_panel]
      split <;> simp [hz]
    · simp only [State.finish_panel, State.finish_seq, State.finish_ps]
      split <;> simpa using ho

/-- After an abandoned operation the engine is idle and Faulted. -/
theorem sequencingInv_of_faulted {s : State} (hq : s.seq = .idle) (hp : s.ps = .faulted) (hz : s.panel.hazard = false)
    (hs : s.session = .opened) : s.SequencingInv := by
  refine ⟨hz, fun _ => hs, ?_⟩
  rw [hq, hp]
  simp [inOrder, PanelState.resting]

/-! ### Each micro-step -/

section
variable {s t : State} {op : Instr} {pos k : Nat}

/-- A panel command reaches an idle panel; it is sent, or its operation abandoned. -/
theorem State.Sequenced.command {m : Micro} {i : Instr} (h : s.Sequenced op pos m) (hq : s.seq = .running op pos k)
    (hi : i.format = .panelOpcode) (hb : s.panel.busy = false) (hp : Machine.psAfter s.ps [m] = s.ps)
    (ho : Machine.inOrder (leavesBusy i) s.ps ((program op).drop (pos + 1)) = true)
    (ht : continueWith (exec i s) = .next t) : t.SequencingInv := by
  obtain ⟨u, hu, rfl⟩ := continueWith_next ht
  rcases exec_panelCommand_ends (by simp [hq]) h.hazard hb hi with ⟨v, hv, hsent⟩ | ⟨v, hv, haband⟩
  · rw [hu] at hv
    cases hv
    obtain ⟨n, hn⟩ := hsent.seq
    exact h.advance (k := k + n) (by rw [hn, hq]; rfl) hsent.session hsent.hazard (hsent.ps.trans hp.symm)
      (by rw [hsent.busy, hsent.ps]; exact ho)
  · rw [hu] at hv
    cases hv
    rw [State.advance_idle _ haband.seq]
    exact sequencingInv_of_faulted haband.seq haband.ps haband.hazard (haband.session.trans h.session)

/-- A turn of the wait: ended, abandoned at the bound, or still waiting. -/
theorem State.SequencingInv.poll (h : s.SequencingInv) (hq : s.seq = .running op pos k)
    (hm : (program op)[pos]? = some .poll) : s.poll.SequencingInv := by
  have hseq := h.sequenced hq hm
  have ho := hseq.inOrder
  simp only [inOrder, Bool.and_eq_true, beq_iff_eq] at ho
  obtain ⟨hps, ho⟩ := ho
  unfold State.poll
  split
  case isTrue hlow =>
    exact hseq.advance (k := k + 1) (by simp [hq]) rfl (by simpa using hseq.hazard) rfl (by simpa [hlow] using ho)
  case isFalse =>
    split
    case isTrue => exact sequencingInv_of_faulted rfl (by simp [hq]) (by simp [hq, hseq.hazard]) hseq.session
    case isFalse =>
      obtain ⟨-, -, hrun⟩ := h
      rw [hq] at hrun
      obtain ⟨hsp, hses, hpos, hpsAfter, -⟩ := hrun
      refine ⟨by simpa using hseq.hazard, fun _ => hseq.session, ?_⟩
      simp only [State.delay_seq, State.pollOnce_seq, hq, Seq.after_running]
      refine ⟨hsp, hses, hpos, hpsAfter, ?_⟩
      rw [List.drop_eq_getElem_cons hpos, (List.getElem?_eq_some_iff.mp hm).2]
      simpa [inOrder, hps] using ho

/-- One micro-step of a running operation. -/
theorem State.SequencingInv.runMicro {m : Micro} (h : s.SequencingInv) (hq : s.seq = .running op pos k)
    (hm : (program op)[pos]? = some m) (ht : runMicro m s = .next t) : t.SequencingInv := by
  have hseq := h.sequenced hq hm
  have ho := hseq.inOrder
  cases m with
  | poll => cases ht; exact h.poll hq hm
  | resetPulse =>
    cases ht
    exact hseq.advance (k := k + 6) (by simp [hq]) (by simp) (by simpa using hseq.hazard) (by simp [psAfter])
      (by simpa [inOrder] using ho)
  | startWait =>
    cases ht
    rw [inOrder, Bool.and_eq_true] at ho
    exact hseq.advance (k := k) hq rfl hseq.hazard rfl ho.2
  | enter p =>
    cases ht
    rw [inOrder, Bool.and_eq_true] at ho
    exact hseq.advance (k := k) hq rfl hseq.hazard rfl ho.2
  | build c => cases ht; exact hseq.advance (k := k) hq rfl hseq.hazard rfl ho
  | loadImage => cases ht; exact hseq.advance (k := k) hq rfl hseq.hazard rfl ho
  | paintXWin =>
    simp only [inOrder, Bool.and_eq_true, Bool.not_eq_true'] at ho
    exact hseq.command hq (i := .ramxwin 0 (s.w - 1)) rfl ho.1 rfl (by rw [ho.1] at ho; exact ho.2) ht
  | paintYWin =>
    simp only [inOrder, Bool.and_eq_true, Bool.not_eq_true'] at ho
    exact hseq.command hq (i := .ramywin 0 (s.h - 1)) rfl ho.1 rfl (by rw [ho.1] at ho; exact ho.2) ht
  | instr i =>
    simp only [inOrder, Bool.and_eq_true, Bool.not_eq_true'] at ho
    exact hseq.command hq ((program_instr hm).2 hseq.spans) ho.1.1 rfl ho.2 ht

end

/-! ### The host's word -/

/-- The expansion of INIT is in order from every panel and every PS, the other expansions from an idle panel and Configured. -/
theorem inOrder_init (busy : Bool) (ps : PanelState) : inOrder busy ps (program .init) = true := by
  change inOrder true .resetting (program .init).tail = true
  decide

theorem inOrder_program {i : Instr} (h : spansSteps i = true) : inOrder false .configured (program i) = true := by
  have hi := spansSteps_cases h
  simp only [List.mem_cons, List.not_mem_nil, or_false] at hi
  rcases hi with rfl | rfl | rfl | rfl | rfl | rfl <;> decide

theorem program_pos {i : Instr} (h : spansSteps i = true) : 0 < (program i).length := by
  cases i with
  | init => decide
  | paint c => exact Nat.succ_pos _
  | clear => decide
  | paintImage => decide
  | sleep => decide
  | _ => cases h

/-- Acceptance of an operation that runs. -/
theorem State.SequencingInv.accept {s : State} {i : Instr} (h : s.SequencingInv) (hq : s.seq = .idle)
    (hsp : spansSteps i = true) (hi : i = .init ∧ s.session = .opened ∨ i ≠ .init ∧ s.ps = .configured) :
    (s.accept i).SequencingInv := by
  obtain ⟨hz, hses, hrest⟩ := h
  rw [hq] at hrest
  rcases hi with ⟨rfl, hopen⟩ | ⟨-, hp⟩
  · exact ⟨hz, hses, hsp, hopen, program_pos hsp, .inl ⟨rfl, rfl⟩, inOrder_init _ _⟩
  · have hb : s.panel.busy = false := by simpa [inOrder, hp, PanelState.resting] using hrest
    refine ⟨hz, hses, hsp, hses (by simp [hp]), program_pos hsp, .inr hp, ?_⟩
    change inOrder s.panel.busy s.ps (program i) = true
    rw [hb, hp]
    exact inOrder_program hsp

/-- Settles O24: by the ways a step answers, an operation's acceptance and its micro-steps. -/
theorem everyStepKeepsSequencing : Obligations.EveryStepKeepsSequencing := by
  intro s t h ht
  rcases step_cases ht with ⟨-, -, rfl⟩ | ⟨r, rest, i, -, -, hd, he⟩ | ⟨op, pos, k, m, hq, hm, he⟩
  · exact h
  · have hpre : (s.present r rest).SequencingInv := h
    obtain ⟨hq, hcases⟩ := exec_host_cases (decodeHostWord_format hd) he
    obtain ⟨hz, hses, hrest⟩ := h
    rcases hcases with ⟨rfl, hsp, hi, -⟩ | ⟨-, -, rfl⟩ | ⟨m, -, -, -, rfl⟩ | ⟨m, -, -, -, -, rfl⟩ | ⟨m, -, -, -, -, rfl⟩
    · exact hpre.accept hq hsp hi
    · exact ⟨hz, hses, hrest⟩
    · exact ⟨hz, hses, hrest⟩
    · exact ⟨hz, hses, hrest⟩
    · have hidle : s.seq = .idle := hq
      rw [hidle] at hrest
      exact ⟨hz, fun _ => rfl, by simpa [hidle] using hrest⟩
  · exact h.runMicro hq hm he

/-! ### No running operation stops -/

/-- A micro-step of an expansion answers a next state. -/
theorem runMicro_next {op : Instr} {pos : Nat} {m : Micro} (hm : (program op)[pos]? = some m) (s : State) :
    ∃ t, runMicro m s = .next t := by
  have bus : ∀ i : Instr, i.format ≠ .hostWord → ∃ t, continueWith (exec i s) = .next t := fun i hi => by
    obtain ⟨u, hu, -⟩ := exec_keeps (P := fun _ => True) (fun _ _ _ _ => trivial) (fun _ _ _ => trivial) i hi s trivial
    exact ⟨u.advance, by rw [hu]; rfl⟩
  cases m with
  | paintXWin => exact bus (.ramxwin 0 (s.w - 1)) (by simp [Instr.format])
  | paintYWin => exact bus (.ramywin 0 (s.h - 1)) (by simp [Instr.format])
  | instr i => exact bus i (program_instr hm).1
  | _ => exact ⟨_, rfl⟩

/-- A host operation never faults. -/
theorem exec_host_ne_fault {i : Instr} (hi : i.format = .hostWord) (s : State) (f : Fault) : exec i s ≠ .fault f := by
  have idle : ∀ {o}, o ≠ .fault f → s.requireIdle o ≠ .fault f := fun h => by
    unfold State.requireIdle
    split
    · exact h
    · simp
  have conf : ∀ {o}, o ≠ .fault f → s.requireConfigured o ≠ .fault f := fun h => by
    unfold State.requireConfigured
    split
    · exact h
    · simp
  cases i with
  | openSession m => exact idle (by split <;> simp)
  | init => exact idle (by simp)
  | paint c => exact idle (conf (by split <;> simp))
  | clear => exact idle (conf (by simp))
  | paintImage => exact idle (conf (by split <;> simp))
  | sleep => exact idle (conf (by simp))
  | _ => cases hi

theorem hostStep_ne_fault (s : State) (f : Fault) : hostStep s ≠ .fault f := by
  unfold hostStep
  split
  · simp
  · split
    · simp
    · exact exec_host_ne_fault (decodeHostWord_format ‹_›) _ f

/-- Settles O26: a running operation stands in its expansion, and every micro-step of one answers a next state. -/
theorem runningOperationsStep : Obligations.RunningOperationsStep := by
  intro s h
  cases hq : s.seq with
  | idle =>
    refine ⟨fun hne => absurd rfl hne, fun f => ?_⟩
    rw [step_idle s hq]
    exact hostStep_ne_fault s f
  | running op pos k =>
    obtain ⟨m, hm⟩ := h.micro hq
    obtain ⟨t, ht⟩ := runMicro_next hm s
    rw [step_running s hq hm, ht]
    exact ⟨fun _ => ⟨t, rfl⟩, fun f => by simp⟩

/-- Settles O25: no operation runs, no byte has been sent, and every memory is empty. -/
theorem invariantsAtReset : Obligations.InvariantsAtReset := by
  refine ⟨⟨rfl, fun h => absurd rfl h, rfl⟩, ⟨BusView.start, rfl, rfl, rfl, ?_⟩, ?_, ⟨rfl, rfl, rfl⟩, fun _ => rfl, ?_⟩
  · intro l hl
    cases hl
  · intro op pos k c hq
    cases hq
  · exact ⟨fun _ => ⟨rfl, rfl⟩, fun h => by cases h⟩

end Sys2Proof.Machine
end

section
/-! O8, O17: what a micro-operation of the bus leaves alone, and what the byte that the transport fails leaves. -/

namespace Sys2Proof.Machine

/-! ### The fields after a failed byte -/

section
variable (s : State) (dc : Bool) (b : Byte)

@[simp] theorem State.afterFailedByte_pinCS : (s.afterFailedByte dc b).pinCS = true := rfl
@[simp] theorem State.afterFailedByte_pinDC : (s.afterFailedByte dc b).pinDC = dc := rfl
@[simp] theorem State.afterFailedByte_pinRST : (s.afterFailedByte dc b).pinRST = s.pinRST := rfl
@[simp] theorem State.afterFailedByte_ps : (s.afterFailedByte dc b).ps = if s.seq = .idle then s.ps else .faulted := rfl
@[simp] theorem State.afterFailedByte_session : (s.afterFailedByte dc b).session = s.session := rfl
@[simp] theorem State.afterFailedByte_err : (s.afterFailedByte dc b).err = .transportFailure := rfl
@[simp] theorem State.afterFailedByte_errInfo : (s.afterFailedByte dc b).errInfo = txCount s.T + 1 := rfl
@[simp] theorem State.afterFailedByte_seq : (s.afterFailedByte dc b).seq = .idle := rfl
@[simp] theorem State.afterFailedByte_w : (s.afterFailedByte dc b).w = s.w := rfl
@[simp] theorem State.afterFailedByte_h : (s.afterFailedByte dc b).h = s.h := rfl
@[simp] theorem State.afterFailedByte_rot : (s.afterFailedByte dc b).rot = s.rot := rfl
@[simp] theorem State.afterFailedByte_color : (s.afterFailedByte dc b).color = s.color := rfl
@[simp] theorem State.afterFailedByte_rowb : (s.afterFailedByte dc b).rowb = s.rowb := rfl
@[simp] theorem State.afterFailedByte_len : (s.afterFailedByte dc b).len = s.len := rfl
@[simp] theorem State.afterFailedByte_lw : (s.afterFailedByte dc b).lw = s.lw := rfl
@[simp] theorem State.afterFailedByte_lh : (s.afterFailedByte dc b).lh = s.lh := rfl
@[simp] theorem State.afterFailedByte_fb : (s.afterFailedByte dc b).fb = [] := rfl
@[simp] theorem State.afterFailedByte_idx : (s.afterFailedByte dc b).idx = s.idx := rfl
@[simp] theorem State.afterFailedByte_polls : (s.afterFailedByte dc b).polls = s.polls := rfl
@[simp] theorem State.afterFailedByte_T : (s.afterFailedByte dc b).T = s.T ++ frame (dc, b) := rfl
@[simp] theorem State.afterFailedByte_cfg : (s.afterFailedByte dc b).cfg = s.cfg := rfl
@[simp] theorem State.afterFailedByte_env : (s.afterFailedByte dc b).env = s.env := rfl
@[simp] theorem State.afterFailedByte_host : (s.afterFailedByte dc b).host = s.host := rfl
@[simp] theorem State.afterFailedByte_port : (s.afterFailedByte dc b).port = s.port := rfl

end

/-- Settles O8: the symbols up to the failing one have left, and the rest is read off the state after the failed byte. -/
theorem transportFailureEndsTheGroup : Obligations.TransportFailureEndsTheGroup := by
  intro i s xs j x hx hj hok hf
  obtain ⟨ix, -, he⟩ := exec_failed (.inl hx) hj hok hf
  have hl : j < xs.length := (List.getElem?_eq_some_iff.mp hj).1
  have hcount : txCount (s.T ++ frames (xs.take j)) + 1 = txCount s.T + 1 + j := by
    simp [Nat.min_eq_left hl.le, Nat.add_assoc, Nat.add_comm j]
  have hT : s.T ++ frames (xs.take j) ++ frame x = s.T ++ frames (xs.take (j + 1)) := by
    rw [List.take_add_one, hj, Option.toList_some, frames_append, List.append_assoc]
    simp
  refine ⟨_, he, by simpa using hT, rfl, by simpa using hcount, by simp [Nat.add_assoc], rfl, rfl, by simp, rfl, rfl,
    fun hq => by simp [hq], by simp, by simp, by simp, by simp, by simp⟩

/-- Settles O17: both ways of `exec_bus_cases` write only the registers named. -/
theorem busInstructionsFrame : Obligations.BusInstructionsFrame := by
  intro i s t hi h
  obtain ⟨ys, ix, hix, rfl | ⟨x, rfl⟩⟩ := exec_bus_cases hi h
  · have hseq : ∃ n, s.seq.after (4 * ys.length) = s.seq.after n := ⟨_, rfl⟩
    simpa [hseq] using hix
  · simpa using hix

end Sys2Proof.Machine
end

section
/-! O33, O34: the frame buffer while an operation runs, and that it is empty when none does. -/

namespace Sys2Proof.Machine

/-! ### No value while no operation runs -/

theorem State.NoIdleBuffer.advance {s : State} (h : s.NoIdleBuffer) : s.advance.NoIdleBuffer := by
  rcases s.advance_cases with e | e | ⟨op, pos, k, -, -, e⟩
  · rwa [e]
  · rw [e]; exact fun _ => rfl
  · rw [e]; exact fun hq => by cases hq

/-- An operation that is still running has no idle buffer to speak of. -/
theorem noIdleBuffer_of_running {s t : State} {n : Nat} (hs : s.seq ≠ .idle) (ht : t.seq = s.seq.after n) : t.NoIdleBuffer :=
  fun hq => absurd ((Seq.after_eq_idle _ _).mp (ht ▸ hq)) hs

/-- A micro-step of a running operation leaves it running, or the buffer empty. -/
theorem MicroStep.noIdleBuffer {m : Micro} {s t : State} (h : MicroStep s m t) (hs : s.seq ≠ .idle) : t.NoIdleBuffer := by
  have running : ∀ {u : State} (n : Nat), u.seq = s.seq.after n → u.NoIdleBuffer := fun n hn => noIdleBuffer_of_running hs hn
  cases h with
  | resetPulse => exact (running 6 s.resetPulse_seq).advance
  | startWait => exact (running 0 (by simp)).advance
  | pollLow hb => exact (running 1 s.pollOnce_seq).advance
  | pollTimedOut hb ht => exact fun _ => rfl
  | pollHigh hb => exact running 2 (by simp)
  | enter p => exact (running 0 (by simp)).advance
  | build c => exact (running 0 (by simp)).advance
  | loadImage => exact (running 0 (by simp)).advance
  | sent hm ys ix => exact (running (4 * ys.length) (by simp)).advance
  | failed ys ix x => exact fun _ => rfl

/-- Settles O34: a host operation that is over at once, error entry and completion empty the buffer, and every other micro-step
leaves the operation running. -/
theorem everyStepKeepsNoIdleBuffer : Obligations.EveryStepKeepsNoIdleBuffer := by
  intro s t h ht
  rcases step_cases ht with ⟨-, -, rfl⟩ | ⟨r, rest, i, -, -, hd, he⟩ | ⟨op, pos, k, m, hq, hm, he⟩
  · exact h
  · obtain ⟨-, hcases⟩ := exec_host_cases (decodeHostWord_format hd) he
    rcases hcases with ⟨rfl, -⟩ | ⟨-, -, rfl⟩ | ⟨m, -, -, -, rfl⟩ | ⟨m, -, -, -, -, rfl⟩ | ⟨m, -, -, -, -, rfl⟩
    · exact fun hq => by cases hq
    all_goals exact fun _ => rfl
  · exact (microStep_of_runMicro hm he).noIdleBuffer (by simp [hq])

/-! ### The whole buffer while a paint runs -/

/-- The builder's registers are those of the whole panel and every byte of the buffer holds a value. -/
structure State.WholeBuffer (s : State) : Prop where
  w : s.w = 122
  h : s.h = 250
  rowb : s.rowb = 16
  len : s.len = 4000
  written : ∀ i, i < 4000 → (s.fb.read? i).isSome = true

/-- The buffer invariant is about paints past their build, and about an image still to be loaded. -/
theorem State.bufferInv_iff {s : State} {op : Instr} {pos k : Nat} (hq : s.seq = .running op pos k) :
    s.BufferInv ↔ ∀ c, (program op).head? = some (.build c) →
      (0 < pos → s.WholeBuffer) ∧ (op = .paintImage → pos ≤ 1 → s.port.length = 4000) := by
  constructor
  · intro h c hc
    obtain ⟨hwhole, hport⟩ := h op pos k c hq hc
    refine ⟨fun hp => ?_, hport⟩
    obtain ⟨hw, hh, hr, hl, hf⟩ := hwhole hp
    exact ⟨hw, hh, hr, hl, hf⟩
  · intro h op' pos' k' c hq' hc
    rw [hq] at hq'
    cases hq'
    obtain ⟨hwhole, hport⟩ := h c hc
    exact ⟨fun hp => let b := hwhole hp; ⟨b.w, b.h, b.rowb, b.len, b.written⟩, hport⟩

theorem State.bufferInv_of_idle {s : State} (hq : s.seq = .idle) : s.BufferInv := by
  intro op pos k c hr
  rw [hq] at hr
  cases hr

/-- `t` has the builder's registers of `s` and every byte of its buffer. -/
structure SameBuffer (s t : State) : Prop where
  w : t.w = s.w
  h : t.h = s.h
  rowb : t.rowb = s.rowb
  len : t.len = s.len
  fb : ∀ a, t.fb.read? a = s.fb.read? a

theorem SameBuffer.whole {s t : State} (e : SameBuffer s t) (h : s.WholeBuffer) : t.WholeBuffer :=
  ⟨e.w.trans h.w, e.h.trans h.h, e.rowb.trans h.rowb, e.len.trans h.len, fun i hi => by rw [e.fb]; exact h.written i hi⟩

section
variable {s u : State} {op : Instr} {pos k k' : Nat}

/-- Moving on past a micro-step that leaves the buffer whole. -/
theorem State.WholeBuffer.advance (hq : u.seq = .running op pos k)
    (hw : ∀ c, (program op).head? = some (.build c) → u.WholeBuffer)
    (hp : op = .paintImage → pos = 0 → u.port.length = 4000) : u.advance.BufferInv := by
  by_cases hl : pos + 1 < (program op).length
  · rw [u.advance_more hq hl, State.bufferInv_iff rfl]
    intro c hc
    have b := hw c hc
    exact ⟨fun _ => ⟨b.w, b.h, b.rowb, b.len, b.written⟩, fun ho hpos => hp ho (by omega)⟩
  · rw [u.advance_last hq hl]
    exact State.bufferInv_of_idle rfl

/-- A paint past its build moves on, its buffer as it was. -/
theorem State.BufferInv.advance {m : Micro} (h : s.BufferInv) (hq : s.seq = .running op pos k) (hm : (program op)[pos]? = some m)
    (hb : ∀ c, m ≠ .build c) (hu : u.seq = .running op pos k') (e : SameBuffer s u) : u.advance.BufferInv := by
  rw [State.bufferInv_iff hq] at h
  have hpos : ∀ c, (program op).head? = some (.build c) → 0 < pos := fun c hc => by
    refine Nat.pos_of_ne_zero fun h0 => hb c ?_
    rw [h0, ← List.head?_eq_getElem?, hc] at hm
    exact (Option.some.inj hm).symm
  refine State.WholeBuffer.advance hu (fun c hc => e.whole ((h c hc).1 (hpos c hc))) fun ho h0 => ?_
  subst ho
  exact absurd h0 (hpos Config.white rfl).ne'

theorem State.buildBuffer_whole (s : State) (r : Rotation) (c : Byte) :
    (s.buildBuffer Config.panelW Config.panelH r c).WholeBuffer := by
  have hr : rowBytes Config.panelW = 16 := by decide
  have hn : bufferLen (rowBytes Config.panelW) Config.panelH = 4000 := by decide
  refine ⟨rfl, rfl, hr, hn, fun i hi => ?_⟩
  rw [State.buildBuffer_fb, hn, Memory.read?_ofBytes_zero, List.getElem?_replicate, if_pos (by simpa using hi)]
  rfl

theorem State.WholeBuffer.loadImage (h : s.WholeBuffer) (hp : s.port.length = 4000) : s.loadImage.WholeBuffer := by
  refine ⟨h.w, h.h, h.rowb, h.len, fun i hi => ?_⟩
  simp [h.len, hp, hi]

/-- The image is loaded by PAINT_IMAGE, directly after its build. -/
theorem program_loadImage (h : (program op)[pos]? = some .loadImage) : op = .paintImage ∧ pos = 1 := by
  have hm := List.mem_of_getElem? h
  cases op with
  | paintImage =>
    refine ⟨rfl, ?_⟩
    rcases pos with _ | _ | pos
    · cases h
    · rfl
    · exact absurd (List.mem_of_getElem? (l := showBuffer) h) (by decide)
  | paint c => simp [program, paintProgram, showBuffer, setCursor, turnOnDisplay, waitIdle] at hm
  | _ =>
    simp [program, paintProgram, showBuffer, setCursor, turnOnDisplay, waitIdle, configure, setWindow, sleepSeq] at hm

/-- WRRAM is sent by paints, past their build. -/
theorem program_wrram (hs : spansSteps op = true) (h : (program op)[pos]? = some (.instr .wrram)) :
    0 < pos ∧ ∃ c, (program op).head? = some (.build c) := by
  have hm := List.mem_of_getElem? h
  have hop := spansSteps_cases hs
  simp only [List.mem_cons, List.not_mem_nil, or_false] at hop
  rcases hop with rfl | rfl | rfl | rfl | rfl | rfl
  case inl => exact absurd hm (by decide)
  case inr.inr.inr.inr.inr => exact absurd hm (by decide)
  all_goals
    refine ⟨Nat.pos_of_ne_zero fun h0 => ?_, _, rfl⟩
    subst h0
    cases h

/-- One micro-step of a running operation. -/
theorem State.BufferInv.microStep {m : Micro} {t : State} (h : s.BufferInv) (hq : s.seq = .running op pos k)
    (hm : (program op)[pos]? = some m) (ht : MicroStep s m t) : t.BufferInv := by
  have same : ∀ {v : State}, v.w = s.w → v.h = s.h → v.rowb = s.rowb → v.len = s.len → v.fb = s.fb → SameBuffer s v :=
    fun hw hh hr hl hf => ⟨hw, hh, hr, hl, fun a => by rw [hf]⟩
  cases ht with
  | resetPulse =>
    exact h.advance hq hm nofun (k' := k + 6) (by simp [hq]) (same (by simp) (by simp) (by simp) (by simp) (by simp))
  | startWait => exact h.advance hq hm nofun (k' := k) hq (same rfl rfl rfl rfl rfl)
  | pollLow hb => exact h.advance hq hm nofun (k' := k + 1) (by simp [hq]) (same rfl rfl rfl rfl rfl)
  | pollTimedOut hb ht => exact State.bufferInv_of_idle rfl
  | pollHigh hb =>
    rw [State.bufferInv_iff hq] at h
    rw [State.bufferInv_iff (op := op) (pos := pos) (k := k + 1 + 1) (by simp [hq])]
    intro c hc
    obtain ⟨hwhole, hport⟩ := h c hc
    have e : SameBuffer s (s.pollOnce.delay Config.tPoll) := same rfl rfl rfl rfl rfl
    exact ⟨fun hp => e.whole (hwhole hp), hport⟩
  | enter p => exact h.advance hq hm nofun (k' := k) hq (same rfl rfl rfl rfl rfl)
  | build c =>
    rw [State.bufferInv_iff hq] at h
    refine State.WholeBuffer.advance (k := k) hq (fun _ _ => s.buildBuffer_whole _ c) fun ho h0 => ?_
    subst ho h0
    exact (h Config.white rfl).2 rfl (by omega)
  | loadImage =>
    obtain ⟨rfl, rfl⟩ := program_loadImage hm
    rw [State.bufferInv_iff hq] at h
    obtain ⟨hwhole, hport⟩ := h Config.white rfl
    refine State.WholeBuffer.advance (k := k) hq (fun _ _ => ?_) fun _ h0 => by cases h0
    exact (hwhole (by omega)).loadImage (hport rfl (by omega))
  | sent hb ys ix =>
    exact h.advance hq hm hb (k' := k + 4 * ys.length) (by simp [hq])
      (same (by simp) (by simp) (by simp) (by simp) (by simp))
  | failed ys ix x => exact State.bufferInv_of_idle rfl

end

/-- Settles O33: the build makes the buffer whole, no later micro-step of a paint but the load writes it, and WRRAM comes
later. -/
theorem everyStepKeepsTheBufferWritten : Obligations.EveryStepKeepsTheBufferWritten := by
  constructor
  · intro s t h ht
    rcases step_cases ht with ⟨-, -, rfl⟩ | ⟨r, rest, i, -, -, hd, he⟩ | ⟨op, pos, k, m, hq, hm, he⟩
    · exact h
    · obtain ⟨hq, hcases⟩ := exec_host_cases (decodeHostWord_format hd) he
      rcases hcases with ⟨rfl, -, -, himage⟩ | ⟨-, -, rfl⟩ | ⟨m, -, -, -, rfl⟩ | ⟨m, -, -, -, -, rfl⟩ | ⟨m, -, -, -, -, rfl⟩
      · rw [State.bufferInv_iff rfl]
        exact fun _ _ => ⟨fun h0 => absurd h0 (Nat.lt_irrefl 0), fun ho _ => himage ho⟩
      all_goals exact State.bufferInv_of_idle hq
    · exact h.microStep hq hm (microStep_of_runMicro hm he)
  · intro s hs hb hmicro
    cases hq : s.seq with
    | idle => simp [State.micro?, hq] at hmicro
    | running op pos k =>
      have hm : (program op)[pos]? = some (.instr .wrram) := by simpa [State.micro?, hq] using hmicro
      obtain ⟨hpos, c, hc⟩ := program_wrram (hs.sequenced hq hm).spans hm
      have hwhole := ((State.bufferInv_iff hq).mp hb c hc).1 hpos
      have hlen : s.len.toNat = 4000 := by rw [hwhole.len]; rfl
      exact ⟨by omega, fun i hi => hwhole.written i (by omega)⟩

end Sys2Proof.Machine
end

section
/-! O47: how a running operation comes to an error: a failed byte, or a wait at its bound. -/

namespace Sys2Proof.Machine

section
variable {s t : State}

/-- The operation of `s` has ended in the error of `t` (60_exceptions.md R266): a byte the transport failed, its frame closed, or
a wait that the bound ended. -/
structure EndedInError (s t : State) : Prop where
  seq : t.seq = .idle
  ps : t.ps = .faulted
  session : t.session = s.session
  pinRST : t.pinRST = s.pinRST
  pinCS : s.pinCS = true → t.pinCS = true
  fb : t.fb = []
  trace : t.T ≠ s.T
  cause : (t.err = .transportFailure ∧ t.errInfo = txCount t.T ∧ ∃ b, t.T.getLast? = some (.drv .cs true) ∧
      t.T.dropLast.getLast? = some (.tx b)) ∨
    (t.err = .deviceUnresponsive ∧ t.errInfo = t.polls ∧ t.T = s.T ++ [.smp true] ∧ s.cfg.busyTimeoutPolls ≠ none)

/-- The last two events of a closed frame. -/
theorem append_frame_ends (T : List Event) (x : Sym) :
    (T ++ frame x).getLast? = some (.drv .cs true) ∧ (T ++ frame x).dropLast.getLast? = some (.tx x.2) := by
  have hf : T ++ frame x = (T ++ [.drv .dc x.1, .drv .cs false, .tx x.2]) ++ [.drv .cs true] := by simp [frame]
  rw [hf, List.dropLast_concat]
  simp

theorem endedInError_of_failedByte (hs : s.seq ≠ .idle) (ys : List Sym) (ix : BitVec 29) (x : Sym) :
    EndedInError s (((s.afterSyms ys).setIdx ix).afterFailedByte x.1 x.2) where
  seq := rfl
  ps := by simp [hs]
  session := by simp
  pinRST := by simp
  pinCS _ := rfl
  fb := rfl
  trace h := by simpa [frame] using congrArg List.length h
  cause := by
    obtain ⟨hlast, hbyte⟩ := append_frame_ends (s.T ++ frames ys) x
    exact .inl ⟨rfl, by simp [Nat.add_assoc], x.2, by simpa using hlast, by simpa using hbyte⟩

theorem endedInError_of_timedOut (hs : s.seq ≠ .idle) (hb : s.env.busyAnswer = true) (hto : s.pollOnce.timedOut = true) :
    EndedInError s (s.pollOnce.raise .deviceUnresponsive s.pollOnce.polls) where
  seq := rfl
  ps := by simp [Seq.emitted_after hs]
  session := rfl
  pinRST := rfl
  pinCS := id
  fb := rfl
  trace := by simp
  cause := by
    refine .inr ⟨rfl, rfl, by simp [hb], fun hn => ?_⟩
    simp [State.timedOut, hn] at hto

/-- A micro-step of a running operation leaves ERR, or ends the operation in an error. -/
theorem MicroStep.err {m : Micro} (h : MicroStep s m t) (hs : s.seq ≠ .idle) : t.err = s.err ∨ EndedInError s t := by
  cases h with
  | pollTimedOut hb ht => exact .inr (endedInError_of_timedOut hs hb ht)
  | failed ys ix x => exact .inr (endedInError_of_failedByte hs ys ix x)
  | _ => exact .inl (by simp)

end

/-- Settles O47: in a run by `MicroStep.err`, at acceptance by the ways a host operation answers. -/
theorem errorEntry : Obligations.ErrorEntry := by
  constructor
  · intro s t op pos k hq hok ht herr
    rcases step_cases ht with ⟨hidle, -⟩ | ⟨_, _, _, hidle, -⟩ | ⟨op', pos', k', m, hq', hm, he⟩
    · rw [hq] at hidle; cases hidle
    · rw [hq] at hidle; cases hidle
    · rcases (microStep_of_runMicro hm he).err (by simp [hq']) with h | h
      · exact absurd (h.trans hok) herr
      · exact ⟨h.seq, h.ps, h.session, h.pinRST, h.pinCS, h.fb, h.trace, h.cause⟩
  · intro i s t hi ht herr
    obtain ⟨hq, hcases⟩ := exec_host_cases hi ht
    rcases hcases with ⟨rfl, -⟩ | ⟨-, -, rfl⟩ | ⟨m, hm, -, -, rfl⟩ | ⟨m, -, -, -, -, rfl⟩ | ⟨m, -, -, -, -, rfl⟩
    · exact absurd rfl herr
    · exact ⟨hq, rfl, rfl, rfl, .inl ⟨rfl, rfl⟩⟩
    · exact ⟨hq, rfl, rfl, rfl, .inr ⟨m, hm, rfl, rfl⟩⟩
    · exact ⟨hq, rfl, rfl, rfl, .inl ⟨rfl, rfl⟩⟩
    · exact absurd rfl herr

end Sys2Proof.Machine
end

section
/-! O52, O53: the canonical memories, and the reset pin. -/

namespace Sys2Proof.Machine

/-! ### The canonical form -/

theorem memoriesCanonical_iff (s : State) : s.MemoriesCanonical ↔ Memory.wf s.fb = true ∧ s.panel.Canonical := Iff.rfl

theorem receiveAll_canonical (cfg : Params) (xs : List Sym) {p : Panel} (h : p.Canonical) :
    (receiveAll cfg xs p).Canonical := by
  induction xs generalizing p with
  | nil => exact h
  | cons x xs ih => exact ih (p.receive_canonical cfg x.1 x.2 h)

theorem State.sendByte_memoriesCanonical (s : State) (dc : Bool) (b : Byte) (h : s.MemoriesCanonical) :
    (s.sendByte dc b).state.MemoriesCanonical := by
  rw [memoriesCanonical_iff] at h ⊢
  obtain ⟨hfb, hp⟩ := h
  rw [s.sendByte_state]
  split
  · refine ⟨rfl, ?_⟩
    rw [State.raise_panel]
    split
    · exact Panel.lose_canonical _
    · exact Panel.missed_canonical _
  · refine ⟨by simpa using hfb, ?_⟩
    rw [State.afterSyms_panel]
    exact receiveAll_canonical _ _ hp

/-- Every operation of the machine keeps the memories canonical: it writes one byte, lists consecutive bytes, or forgets. -/
theorem kept_memoriesCanonical : Kept State.MemoriesCanonical where
  byte s dc b h := s.sendByte_memoriesCanonical dc b h
  idx _ _ h := h
  present _ _ _ h := h
  accept _ _ h := h
  finish s h := by
    refine ⟨rfl, ?_⟩
    rw [State.finish_panel]
    split
    · exact s.panel.recovered_canonical h.2
    · exact h.2
  raise s e n h := by
    refine ⟨rfl, ?_⟩
    rw [State.raise_panel]
    split
    · exact s.panel.lose_canonical
    · exact h.2
  opened _ h := h
  transport _ h := h
  moved _ _ _ _ h := h
  setPS _ _ h := h
  build s w h r c hc := ⟨Memory.wf_ofBytes _ _, hc.2⟩
  load s h := ⟨Memory.wf_ofBytes _ _, h.2⟩
  reset s h := by
    rw [memoriesCanonical_iff, s.resetPulse_fb, s.resetPulse_panel]
    exact ⟨h.1, s.panel.latchReset_canonical h.2⟩
  startWait _ h := h
  pollOnce s h := ⟨h.1, s.panel.sampled_canonical _ h.2⟩
  delay _ _ h := h

/-- Settles O52: every operation of the machine keeps the canonical form. -/
theorem everyStepKeepsMemoriesCanonical : Obligations.EveryStepKeepsMemoriesCanonical :=
  fun _ _ h ht => kept_memoriesCanonical.step h ht

/-! ### The reset pin -/

/-- `t` comes after `s` with no drive of RST between. -/
structure RstUntouched (s t : State) : Prop where
  pin : t.pinRST = s.pinRST
  trace : ∃ ev, t.T = s.T ++ ev ∧ ∀ l, .drv .rst l ∉ ev

theorem rstUntouched_of_same {s t : State} (hp : t.pinRST = s.pinRST) (hT : t.T = s.T) : RstUntouched s t :=
  ⟨hp, [], by simp [hT], by simp⟩

theorem drv_rst_not_mem_frames (xs : List Sym) (l : Bool) : Event.drv .rst l ∉ frames xs := by
  simp [frames, frame]

/-- Only the reset pulse touches RST. -/
theorem MicroStep.rstUntouched {m : Micro} {s t : State} (h : MicroStep s m t) (hr : m ≠ .resetPulse) : RstUntouched s t := by
  cases h with
  | resetPulse => exact absurd rfl hr
  | pollLow hb => exact ⟨by simp, [.smp s.env.busyAnswer], by simp, by simp⟩
  | pollTimedOut hb ht => exact ⟨rfl, [.smp s.env.busyAnswer], rfl, by simp⟩
  | pollHigh hb => exact ⟨rfl, [.smp s.env.busyAnswer, .dly Config.tPoll], by simp, by simp⟩
  | sent hm ys ix => exact ⟨by simp, frames ys, by simp, drv_rst_not_mem_frames ys⟩
  | failed ys ix x => exact ⟨by simp, frames (ys ++ [x]), by simp [frames_append], drv_rst_not_mem_frames _⟩
  | _ => exact rstUntouched_of_same (by simp) (by simp)

theorem exec_host_rstUntouched {i : Instr} {s t : State} (hi : i.format = .hostWord) (h : exec i s = .next t) :
    RstUntouched s t := by
  obtain ⟨-, hcases⟩ := exec_host_cases hi h
  rcases hcases with ⟨rfl, -⟩ | ⟨-, -, rfl⟩ | ⟨m, -, -, -, rfl⟩ | ⟨m, -, -, -, -, rfl⟩ | ⟨m, -, -, -, -, rfl⟩
  all_goals exact rstUntouched_of_same rfl rfl

/-- Settles O53: a step is INIT's reset pulse, which ends high, or leaves RST untouched. -/
theorem onlyInitDrivesReset : Obligations.OnlyInitDrivesReset := by
  intro s t ht
  have untouched : RstUntouched s t → ∃ ev, t.T = s.T ++ ev ∧ ((∃ l, .drv .rst l ∈ ev) ∨ t.pinRST ≠ s.pinRST →
      (∃ k, s.seq = .running .init 0 k) ∧ t.pinRST = true) := by
    rintro ⟨hp, ev, hT, hev⟩
    refine ⟨ev, hT, ?_⟩
    rintro (⟨l, hl⟩ | hne)
    · exact absurd hl (hev l)
    · exact absurd hp hne
  rcases step_cases ht with ⟨-, -, rfl⟩ | ⟨r, rest, i, -, -, hd, he⟩ | ⟨op, pos, k, m, hq, hm, he⟩
  · exact untouched (rstUntouched_of_same rfl rfl)
  · obtain ⟨hp, hT⟩ := exec_host_rstUntouched (decodeHostWord_format hd) he
    exact untouched ⟨hp, hT⟩
  · by_cases hr : m = .resetPulse
    · subst hr
      obtain ⟨rfl, rfl⟩ := program_resetPulse hm
      cases he
      exact ⟨_, by rw [State.advance_T, State.resetPulse_T], fun _ => ⟨⟨k, hq⟩, by simp⟩⟩
    · exact untouched ((microStep_of_runMicro hm he).rstUntouched hr)

end Sys2Proof.Machine
end

section
/-! O36, O50: the acceptance of OPEN, and that a step runs what the decoder read. -/

namespace Sys2Proof.Machine

/-- Settles O36: each of the three ways the body of OPEN ends. -/
theorem openConsultsTheTransport : Obligations.OpenConsultsTheTransport := by
  intro m s hq hc
  have he : exec (.openSession m) s = .next ((s.accept (.openSession m)).openBody m) := by
    simp [exec, execOpen, State.requireIdle, hq, hc]
  obtain ⟨-, hcases⟩ := exec_host_cases rfl he
  refine ⟨_, he, ?_⟩
  rcases hcases with ⟨-, hsp, -⟩ | ⟨hi, -⟩ | ⟨m', hm', -, hne, ht⟩ | ⟨m', hm', -, heq, -, ht⟩ | ⟨m', hm', -, heq, -, ht⟩
  · cases hsp
  · cases hi
  · cases hm'; rw [ht]; simp [hne]
  · cases hm'; rw [ht]; simp [heq]
  · cases hm'; rw [ht]; simp [heq]

/-! ### The words of the opcode table -/

/-- An opcode byte is no host operation. -/
theorem decodeOpcode_format {op : Byte} {bs rest : List Byte} {i : Instr} (h : decodeOpcode op bs = .ok i rest) :
    i.format = .panelOpcode := by
  unfold decodeOpcode at h
  split at h
  case h_4 => unfold decodeXWin at h; split at h <;> cases h; rfl
  case h_5 => unfold decodeYWin at h; split at h <;> cases h; rfl
  all_goals cases h
  all_goals rfl

theorem decodeSymbol_format (w : Symbol) : (decodeSymbol w).format = .busSymbol := by
  unfold decodeSymbol
  split <;> rfl

/-- What the host's byte form decodes to, the host's word decoder read. -/
theorem decode_hostWord_word {bs rest : List Byte} {i : Instr} (h : decode .hostWord bs = .ok i rest) :
    ∃ w, decodeHostWord w = .ok i := by
  match bs, h with
  | lo :: hi :: bs, h =>
    simp only [decode] at h
    split at h
    · cases hd : decodeHostWord (hi.setWidth 11 <<< 8 ||| lo.setWidth 11) with
      | ok j => rw [hd] at h; cases h; exact ⟨_, hd⟩
      | error r => rw [hd] at h; cases h
    · cases h

theorem decode_busSymbol_format {bs rest : List Byte} {i : Instr} (h : decode .busSymbol bs = .ok i rest) :
    i.format = .busSymbol := by
  match bs, h with
  | lo :: hi :: bs, h =>
    simp only [decode] at h
    split at h
    · cases h; exact decodeSymbol_format _
    · cases h

theorem Decoded.instr?_eq_some {d : Decoded} {i : Instr} (h : d.instr? = some i) : ∃ rest, d = .ok i rest := by
  cases d with
  | ok j rest => cases h; exact ⟨rest, rfl⟩
  | reject r => cases h

/-- A host operation of the table comes from the host's word decoder. -/
theorem decodeTableWord_host {nbits w : Nat} {i : Instr} (h : decodeTableWord nbits w = some i) (hi : i.format = .hostWord) :
    ∃ v, decodeHostWord v = .ok i := by
  unfold decodeTableWord at h
  dsimp only at h
  split at h
  · cases h
  split at h
  · obtain ⟨rest, hd⟩ := Decoded.instr?_eq_some h
    rw [decodeOpcode_format hd] at hi
    cases hi
  split at h
  · obtain ⟨rest, hd⟩ := Decoded.instr?_eq_some h
    rw [decode_busSymbol_format hd] at hi
    cases hi
  split at h
  · obtain ⟨rest, hd⟩ := Decoded.instr?_eq_some h
    exact decode_hostWord_word hd
  split at h
  · cases hw : decode .hostWord [byteOfNat w 0, byteOfNat w 1] with
    | ok j rest => rw [hw] at h; cases h; exact decode_hostWord_word hw
    | reject r =>
      rw [hw] at h
      obtain ⟨rest, hd⟩ := Decoded.instr?_eq_some h
      rw [decode_busSymbol_format hd] at hi
      cases hi
  · cases h

/-- What the host's decoder reads is well-formed: of PAINT it takes the two colours alone. -/
theorem decodeHostWord_wf {w : HostWord} {i : Instr} (h : decodeHostWord w = .ok i) : i.wf = true := by
  have no : ∀ j, hostNoOperand j w = .ok i → j.wf = true → i.wf = true := by
    intro j hj hwf
    unfold hostNoOperand at hj
    split at hj
    · cases hj; exact hwf
    · cases hj
  unfold decodeHostWord at h
  split at h
  · cases h; rfl
  · exact no _ h rfl
  · split at h
    · cases h; assumption
    · cases h
  · exact no _ h rfl
  · exact no _ h rfl
  · exact no _ h rfl
  · cases h

theorem decodeHostWord_open (m : Byte) : decodeHostWord (BitVec.ofNat 11 m.toNat) = .ok (.openSession m) := by
  have hcode : (BitVec.ofNat 11 m.toNat >>> 8).toNat = 0 := by
    simp only [BitVec.toNat_ushiftRight, BitVec.toNat_ofNat, Nat.shiftRight_eq_div_pow]
    omega
  have harg : (BitVec.ofNat 11 m.toNat).setWidth 8 = m := by
    apply BitVec.eq_of_toNat_eq
    simp only [BitVec.toNat_setWidth, BitVec.toNat_ofNat]
    omega
  simp only [decodeHostWord, hcode, harg]

/-- The host word placed for an operation decodes to it. -/
theorem decodeHostWord_hostWordOf {i : Instr} (hi : i.format = .hostWord) (hwf : i.wf = true) :
    ∃ w, hostWordOf i = some w ∧ decodeHostWord w = .ok i := by
  cases i with
  | openSession m => exact ⟨_, rfl, by simpa [encode] using decodeHostWord_open m⟩
  | init => exact ⟨_, rfl, rfl⟩
  | paint c =>
    rcases isColour_cases hwf with rfl | rfl
    · exact ⟨_, rfl, rfl⟩
    · exact ⟨_, rfl, rfl⟩
  | clear => exact ⟨_, rfl, rfl⟩
  | paintImage => exact ⟨_, rfl, rfl⟩
  | sleep => exact ⟨_, rfl, rfl⟩
  | _ => cases hi

/-- A host operation placed for fetching is the next one to run. -/
theorem step_aboutToRun_host {i : Instr} (hi : i.format = .hostWord) (hwf : i.wf = true) (s : State) :
    step (s.aboutToRun i) = exec i { s with seq := .idle } := by
  obtain ⟨w, hw, hd⟩ := decodeHostWord_hostWordOf hi hwf
  simp only [State.aboutToRun, hw]
  rw [step_idle _ rfl, hostStep_accepts (r := ⟨w, s.port⟩) (rest := s.host) _ rfl hd]
  exact congrArg (exec i) rfl

/-- A micro-operation is no host word, and stands for itself as an expansion. -/
theorem program_micro {i : Instr} (hi : i.format ≠ .hostWord) : hostWordOf i = none ∧ (program i)[0]? = some (.instr i) := by
  cases i with
  | openSession m => exact absurd rfl hi
  | init => exact absurd rfl hi
  | paint c => exact absurd rfl hi
  | clear => exact absurd rfl hi
  | paintImage => exact absurd rfl hi
  | sleep => exact absurd rfl hi
  | _ => exact ⟨rfl, rfl⟩

theorem step_aboutToRun_micro {i : Instr} (hi : i.format ≠ .hostWord) {s t : State}
    (h : exec i { s with seq := .running i 0 0 } = .next t) : step (s.aboutToRun i) = .next t.advance := by
  obtain ⟨hw, hm⟩ := program_micro hi
  simp only [State.aboutToRun, hw]
  rw [step_running _ rfl hm, runMicro_instr h]

theorem State.withFetchWord_some {nbits w : Nat} {i : Instr} (h : decodeTableWord nbits w = some i) (s : State) :
    s.withFetchWord nbits w = s.aboutToRun i := by
  simp only [State.withFetchWord, h]

/-- Where the sequencer stands after a micro-step of a running operation. -/
theorem State.advance_running {t : State} {op : Instr} {pos k : Nat} (hq : t.seq = .running op pos k) :
    t.advance = if pos + 1 < (program op).length then { t with seq := .running op (pos + 1) k }
      else { t with panel := if op = .init then t.panel.recovered else t.panel, seq := .idle, fb := [] } := by
  split
  · next hp => exact t.advance_more hq hp
  · next hp =>
    rw [t.advance_last hq hp]
    simp [State.finish, hq]

/-- Settles O50: the equations of a step, and what placing a table word makes it run. -/
theorem stepRunsTheDecodedInstruction : Obligations.StepRunsTheDecodedInstruction := by
  refine ⟨fun s r rest i hq hh hd => ?_, fun s op pos k i t hq hm he => ?_, fun s hq hh => ?_,
    fun t op pos k hq => State.advance_running hq, fun s nbits w i hd hi => ?_, fun s nbits w i t hd hi he => ?_⟩
  · rw [step_idle s hq, hostStep_accepts s hh hd]
    rfl
  · rw [step_running s hq hm, runMicro_instr he]
  · rw [step_idle s hq]
    simp only [hostStep, hh]
  · obtain ⟨v, hv⟩ := decodeTableWord_host hd hi
    rw [State.withFetchWord_some hd, step_aboutToRun_host hi (decodeHostWord_wf hv)]
  · rw [State.withFetchWord_some hd, step_aboutToRun_micro hi he]

end Sys2Proof.Machine
end

section
/-! O44, O41: the runs of SLEEP and INIT from their acceptance to their end. -/

namespace Sys2Proof.Machine

/-! ### SLEEP -/

theorem exec_sleep_accepts {s : State} (hq : s.seq = .idle) (hp : s.ps = .configured) :
    exec .sleep s = .next (s.accept .sleep) := by
  simp [exec, execSleep, State.requireIdle, State.requireConfigured, hq, hp]

/-- Settles O44: the deep-sleep group, then the change of PS that ends the operation. -/
theorem sleepCompletes : Obligations.SleepCompletes := by
  intro s hq hp ht
  have hgroup := exec_group (s := s.accept .sleep) (i := .dsleep) (by simp) rfl ((State.transportOk_congr rfl rfl).mpr ht)
  have hsent := step_more (s := s.accept .sleep) (op := .sleep) (pos := 0) (k := 0) (m := .instr .dsleep) rfl rfl
    (runMicro_instr hgroup) (State.afterSyms_seq _ _) (by decide)
  refine ⟨s.accept .sleep, receiveAll s.cfg [(false, 0x10), (true, s.cfg.sleepMode)] s.panel, exec_sleep_accepts hq hp, ?_⟩
  rw [runFor_step 1 hsent, runFor_one, step_enter_last (p := .sleepRequested) rfl rfl (by decide)]
  simp [State.afterSyms, State.accept, frame]

/-! ### The steps of INIT -/

section
variable {s : State} {op : Instr} {pos k : Nat}

/-- The reset pulse of INIT (42_panel_state_machine.md R171). -/
theorem step_resetPulse (hq : s.seq = .running .init 0 k) :
    step s = .next
      { s with
        ps := .resetting
        pinRST := true
        T := s.T ++ resetTrace
        seq := .running .init 1 (k + 6)
        panel := s.panel.latchReset } := by
  rw [step_more (n := 6) (t := s.resetPulse) hq rfl rfl (by simp) (by decide)]
  simp [State.resetPulse, State.setPS, State.drive, State.setPin, State.delay, State.emit, State.setPanel, resetTrace,
    Config.tRstHigh1, Config.tRstLow, Config.tRstHigh2]

/-- WAIT_IDLE from its entry, `m` high samples and a low one (R172). -/
theorem runFor_waitIdle (m : Nat) (hq : s.seq = .running op pos k) (hw : (program op)[pos]? = some .startWait)
    (hp : (program op)[pos + 1]? = some .poll) (hl : pos + 2 < (program op).length)
    (ha : s.env.busyAnswers (m + 1) = waitAnswers m) (hb : ∀ n, s.cfg.busyTimeoutPolls = some n → m < n) :
    runFor (m + 2) s = .next
      { s with
        ps := .awaitingIdle
        polls := m + 1
        T := s.T ++ waitTrace m
        seq := .running op (pos + 2) (k + 2 * m + 1)
        panel := s.panel.sampled false
        env := s.env.afterSamples (m + 1) } := by
  rw [runFor_step (m + 1) (step_startWait hq hw (by omega)),
    runFor_poll (s := { s with ps := .awaitingIdle, polls := 0, seq := .running op (pos + 1) k }) m rfl hp hl ha
      (fun n hn => by simpa using hb n hn)]
  simp

/-- A wait and the change to Configured after it, more micro-steps following. -/
theorem runFor_waitConfigured (m : Nat) (hq : s.seq = .running op pos k) (hw : (program op)[pos]? = some .startWait)
    (hp : (program op)[pos + 1]? = some .poll) (he : (program op)[pos + 2]? = some (.enter .configured))
    (hl : pos + 3 < (program op).length) (ha : s.env.busyAnswers (m + 1) = waitAnswers m)
    (hb : ∀ n, s.cfg.busyTimeoutPolls = some n → m < n) :
    ∃ n, runFor n s = .next
      { s with
        ps := .configured
        polls := m + 1
        T := s.T ++ waitTrace m
        seq := .running op (pos + 3) (k + 2 * m + 1)
        panel := s.panel.sampled false
        env := s.env.afterSamples (m + 1) } :=
  runFor_trans ⟨_, runFor_waitIdle m hq hw hp (by omega) ha hb⟩ (runFor_of_step (step_enter rfl he hl))

end

/-- The answers of three waits, one after the other. -/
theorem Env.busyAnswers_three {e : Env} {m₁ m₂ m₃ : Nat}
    (h : e.busyAnswers (m₁ + m₂ + m₃ + 3) = waitAnswers m₁ ++ waitAnswers m₂ ++ waitAnswers m₃) :
    e.busyAnswers (m₁ + 1) = waitAnswers m₁ ∧ (e.afterSamples (m₁ + 1)).busyAnswers (m₂ + 1) = waitAnswers m₂ ∧
      ((e.afterSamples (m₁ + 1)).afterSamples (m₂ + 1)).busyAnswers (m₃ + 1) = waitAnswers m₃ := by
  rw [show m₁ + m₂ + m₃ + 3 = (m₁ + 1) + ((m₂ + 1) + (m₃ + 1)) by omega, Env.busyAnswers_add (m₁ + 1),
    Env.busyAnswers_add (m₂ + 1), List.append_assoc] at h
  obtain ⟨h₁, h⟩ := List.append_inj h (by simp)
  obtain ⟨h₂, h₃⟩ := List.append_inj h (by simp)
  exact ⟨h₁, h₂, h₃⟩

@[simp] theorem txCount_resetTrace : txCount resetTrace = 0 := rfl

/-- Where `a` bytes have been sent since `s`, the transport sends `n` more. -/
theorem State.transportOk_later {s t : State} {a n : Nat} (hT : txCount t.T = txCount s.T + a) (he : t.env.txFail = s.env.txFail)
    (h : s.TransportOk (a + n)) : t.TransportOk n := by
  intro j hj
  rw [hT, he, show txCount s.T + a + 1 + j = txCount s.T + 1 + (a + j) by omega]
  exact h (a + j) (by omega)

/-- The command frame groups of CONFIGURE after its software reset (42_panel_state_machine.md R173). -/
def configGroups (p : Params) : List (List Sym) :=
  [[(false, 0x01), (true, 0xF9), (true, 0x00), (true, p.gateScan)], [(false, 0x11), (true, p.dataEntryMode)],
    [(false, 0x44), (true, 0x00), (true, 0x0F)], [(false, 0x45), (true, 0x00), (true, 0x00), (true, 0xF9), (true, 0x00)],
    [(false, 0x4E), (true, 0x00)], [(false, 0x4F), (true, 0x00), (true, 0x00)], [(false, 0x3C), (true, p.borderWaveform)],
    [(false, 0x21), (true, p.updateCtrlA), (true, p.updateCtrlB)], [(false, 0x18), (true, p.tempSensor)]]

theorem configGroups_flatten (p : Params) : (configGroups p).flatten = configSyms p := rfl

theorem configSyms_getLast? (p : Params) : (configSyms p).getLast? = some (true, p.tempSensor) := rfl

/-- The configuration commands of INIT. -/
theorem runFor_configSyms {s : State} {k : Nat} (hq : s.seq = .running .init 8 k) (ht : s.TransportOk 26) :
    ∃ n, runFor n s = .next { s.afterSyms (configSyms s.cfg) with seq := .running .init 17 (k + 104) } := by
  rw [← configGroups_flatten]
  exact ⟨9, runFor_groups [.drvout, .dentry, .ramxwin 0 121, .ramywin 0 249, .ramxcnt, .ramycnt, .border, .updctl1, .tempsen]
    (xss := configGroups s.cfg) hq rfl rfl (by simp) (by decide) ht⟩

/-- INIT from its first micro-step to its end (44_orchestrator.md R232, 42_panel_state_machine.md R173). -/
theorem runFor_init (s : State) (k m₁ m₂ m₃ : Nat) (hq : s.seq = .running .init 0 k) (ht : s.TransportOk 27)
    (ha : s.env.busyAnswers (m₁ + m₂ + m₃ + 3) = waitAnswers m₁ ++ waitAnswers m₂ ++ waitAnswers m₃)
    (hb : ∀ n, s.cfg.busyTimeoutPolls = some n → m₁ < n ∧ m₂ < n ∧ m₃ < n) :
    ∃ n, runFor n s = .next
      { s with
        pinCS := true
        pinDC := true
        pinRST := true
        ps := .configured
        seq := .idle
        sr := s.cfg.tempSensor
        srBits := 0
        fb := []
        polls := m₃ + 1
        T := s.T ++ resetTrace ++ waitTrace m₁ ++ frames [(false, 0x12)] ++ waitTrace m₂ ++ frames (configSyms s.cfg) ++
          waitTrace m₃
        panel := s.panel.afterInit s.cfg
        env := s.env.afterSamples (m₁ + m₂ + m₃ + 3) } := by
  obtain ⟨ha₁, ha₂, ha₃⟩ := Env.busyAnswers_three ha
  have hreset := runFor_of_step (step_resetPulse hq)
  have hwait₁ := runFor_trans hreset (runFor_waitConfigured m₁ rfl rfl rfl rfl (by decide) ha₁ fun n hn => (hb n hn).1)
  have hswreset := runFor_trans hwait₁ ⟨_, runFor_groups [.swreset] (xss := [[(false, 0x12)]]) rfl rfl rfl (by simp) (by decide)
    (State.transportOk_later (a := 0) (by simp) (by simp) (s.transportOk_mono ht (by simp)))⟩
  have hwait₂ := runFor_trans hswreset (runFor_waitConfigured m₂ rfl rfl rfl rfl (by decide) (by simpa using ha₂)
    fun n hn => (hb n (by simpa using hn)).2.1)
  have hconfig := runFor_trans hwait₂ (runFor_configSyms rfl
    (State.transportOk_later (a := 1) (by simp) (by simp) (s.transportOk_mono ht (by simp))))
  have hwait₃ := runFor_trans hconfig ⟨_, runFor_waitIdle m₃ rfl rfl rfl (by decide) (by simpa using ha₃)
    fun n hn => (hb n (by simpa using hn)).2.2⟩
  have hend := runFor_trans hwait₃ (runFor_of_step (step_enter_last (p := .configured) rfl rfl (by decide)))
  have henv : s.env.afterSamples (m₁ + m₂ + m₃ + 3) =
      ((s.env.afterSamples (m₁ + 1)).afterSamples (m₂ + 1)).afterSamples (m₃ + 1) := by
    rw [← Env.afterSamples_add, ← Env.afterSamples_add]
    congr 1
    omega
  simpa [State.afterSyms, configSyms_getLast?, Panel.afterInit, henv] using hend

theorem exec_init_accepts {s : State} (hq : s.seq = .idle) (hs : s.session = .opened) : exec .init s = .next (s.accept .init) := by
  simp [exec, execInit, State.requireIdle, State.initBody, hq, hs]

/-- Settles O41: the run of INIT ends with the panel of `Panel.afterInit`, whose registers `Panel.afterInit_eq` gives. -/
theorem initConfiguresThePanel : Obligations.InitConfiguresThePanel := by
  intro s m₁ m₂ m₃ hq hs ht ha hb
  obtain ⟨n, hrun⟩ := runFor_init (s.accept .init) 0 m₁ m₂ m₃ rfl ((State.transportOk_congr rfl rfl).mpr ht) ha hb
  refine ⟨_, n, _, exec_init_accepts hq hs, hrun, rfl, rfl, ?_⟩
  dsimp only [State.accept_panel, State.accept_cfg]
  rw [Panel.afterInit_eq]
  exact ⟨rfl, rfl, rfl, rfl, rfl, rfl⟩

end Sys2Proof.Machine
end

section
/-! O19: the shift register and the record of the panel after each primitive. -/

namespace Sys2Proof.Machine

theorem State.afterSyms_sr (s : State) {xs : List Sym} {x : Sym} (h : xs.getLast? = some x) :
    (s.afterSyms xs).sr = x.2 ∧ (s.afterSyms xs).srBits = 0 := by
  simp [State.afterSyms, h]

theorem exec_codec_failed (s : State) (b : Byte) (h : txCount s.T + 1 ∈ s.env.txFail) :
    exec (.cmd b) s = .next (s.afterFailedByte false b) ∧ exec (.dat b) s = .next (s.afterFailedByte true b) := by
  have hf := s.nextTxFails_iff.mpr h
  simp only [exec, execCmd, execDat, s.sendByte_failed _ b hf]
  exact ⟨rfl, rfl⟩

/-- No expansion ends in a wait: PS has still to be changed. -/
theorem program_poll_more {op : Instr} {pos : Nat} (h : (program op)[pos]? = some .poll) : pos + 1 < (program op).length := by
  have hlast : (program op).getLast? ≠ some .poll := by cases op <;> nofun
  have hpos : pos < (program op).length := (List.getElem?_eq_some_iff.mp h).1
  refine Nat.lt_of_le_of_ne hpos fun he => hlast ?_
  rw [List.getLast?_eq_getElem?, ← he, Nat.add_sub_cancel, h]

section
variable {s : State} {op : Instr} {pos k : Nat}

/-- A high sample at the bound. -/
theorem step_poll_timedOut (hq : s.seq = .running op pos k) (hm : (program op)[pos]? = some .poll)
    (hb : s.env.busyAnswer = true) (ht : s.pollOnce.timedOut = true) :
    step s = .next (s.pollOnce.raise .deviceUnresponsive s.pollOnce.polls) := by
  rw [step_running s hq hm]
  simp only [runMicro, State.poll, hb, ht, Bool.true_eq_false, if_false, if_true]

/-- What a turn of the wait makes of the panel's record. -/
theorem step_poll_panel (hq : s.seq = .running op pos k) (hm : (program op)[pos]? = some .poll) :
    ∃ t, step s = .next t ∧
      (s.env.busyAnswer = false → t.panel = s.panel.sampled false) ∧
      (s.env.busyAnswer = true → t.seq ≠ .idle → t.panel = s.panel.sampled true) ∧
      (s.env.busyAnswer = true → t.seq = .idle → t.panel = (s.panel.sampled true).lose) := by
  cases hb : s.env.busyAnswer with
  | false => exact ⟨_, step_poll_low hq hm (program_poll_more hm) hb, fun _ => rfl, nofun, nofun⟩
  | true =>
    cases ht : s.pollOnce.timedOut with
    | false => exact ⟨_, step_poll_high hq hm hb ht, nofun, fun _ _ => rfl, fun _ h => by cases h⟩
    | true =>
      refine ⟨_, step_poll_timedOut hq hm hb ht, nofun, fun _ h => absurd rfl h, fun _ _ => ?_⟩
      simp [hq, hb]

/-- INIT's last micro-step makes the panel known. -/
theorem step_init_last (hq : s.seq = .running .init pos k) (hl : pos + 1 = (program .init).length) :
    ∃ t, step s = .next t ∧ t.panel = s.panel.recovered := by
  obtain rfl : pos = 19 := Nat.succ.inj hl
  exact ⟨_, step_enter_last (p := .configured) hq rfl (by decide), rfl⟩

end

/-- Settles O19: the state after the symbols, the state after the failed byte, and the steps of the reset pulse, of a wait and of
INIT's end. -/
theorem panelRecordFollowsTheTrace : Obligations.PanelRecordFollowsTheTrace := by
  refine ⟨fun i s xs x hx hlast ht => ?_, fun b s h => exec_codec_failed s b h, fun s k hq => ⟨_, step_resetPulse hq, rfl⟩,
    fun s op pos k hq hm => step_poll_panel hq hm, fun s pos k hq hl => step_init_last hq hl⟩
  obtain ⟨ix, -, he⟩ := exec_sent hx ht
  obtain ⟨hsr, hbits⟩ := s.afterSyms_sr hlast
  exact ⟨_, he, hsr, hbits, by simp⟩

end Sys2Proof.Machine
end

section
/-! O18: the fourteen panel commands at a panel that is known and idle: one law for the commands that write registers, one for a
RAM write, and the four others. -/

namespace Sys2Proof.Machine

theorem Memory.read?_write (m : Memory) (a a' : Nat) (b : Byte) :
    (m.write a b).read? a' = if a' = a then some b else m.read? a' := by
  split
  · next h => rw [h, Memory.read?_write_same]
  · next h => exact Memory.read?_write_other m a a' b h

/-- The registers after the data bytes of a group, the first of them number `n`; none where the source gives the group no such
byte. -/
def PanelRegs.storeFrom (op : Byte) : (n : Nat) → List Byte → PanelRegs → Option PanelRegs
  | _, [], r => some r
  | n, b :: bs, r => (r.store b op.toNat n).bind fun q => PanelRegs.storeFrom op (n + 1) bs q

section
variable {p : Panel} {cfg : Params} {op b : Byte} (hl : p.lost = false) (hb : p.busy = false)
include hl hb

/-- A command that starts a group and has no effect of its own. -/
theorem Panel.receive_command (hop : panelOpcodes.contains op = true) (ho : op ≠ 0x12 ∧ op ≠ 0x20) :
    p.receive cfg false op = { p with opcode := some op, index := 0 } := by
  obtain ⟨h12, h20⟩ := ho
  rw [p.receive_known cfg false op hl hb]
  simp only [Panel.act, Panel.command, hop, h12, h20, Panel.wakes, Bool.false_eq_true, if_false, if_true]
  simpa [hb] using ⟨h12, h20⟩

/-- A data byte that writes a register; only that of TEMPSEN may leave the panel busy. -/
theorem Panel.receive_register {r : PanelRegs} (hop : p.opcode = some op) (ho : op ≠ 0x24 ∧ op ≠ 0x10)
    (hr : p.regs.store b op.toNat p.index = some r) :
    p.receive cfg true b = { p with regs := r, index := p.index + 1, busy := op == 0x18 } := by
  obtain ⟨h24, h10⟩ := ho
  rw [p.receive_known cfg true b hl hb]
  simp only [Panel.act, Panel.data, hop, hr, h24, h10, Panel.wakes, if_false, if_true]
  simpa using fun h => absurd h h10

theorem Panel.receive_registers {r : PanelRegs} {data : List Byte} (hop : p.opcode = some op)
    (ho : op ≠ 0x24 ∧ op ≠ 0x10 ∧ op ≠ 0x18) (hr : p.regs.storeFrom op p.index data = some r) :
    receiveAll cfg (data.map fun b => (true, b)) p = { p with regs := r, index := p.index + data.length } := by
  induction data generalizing p with
  | nil => cases hr; rfl
  | cons b bs ih =>
    obtain ⟨h24, h10, h18⟩ := ho
    obtain ⟨q, hq, hr⟩ := Option.bind_eq_some_iff.mp hr
    have hbusy : (op == 0x18) = false := by simpa using h18
    rw [List.map_cons, receiveAll_cons, Panel.receive_register hl hb hop ⟨h24, h10⟩ hq, hbusy,
      ih (p := { p with regs := q, index := p.index + 1, busy := false }) hl rfl hop hr]
    simp [hb, Nat.add_assoc, Nat.add_comm 1]

/-- A command frame group that writes registers and nothing else of the panel. -/
theorem Panel.receive_group {r : PanelRegs} {data : List Byte} (hop : panelOpcodes.contains op = true)
    (ho : op ∉ [0x12, 0x20, 0x24, 0x10, 0x18]) (hr : p.regs.storeFrom op 0 data = some r) :
    receiveAll cfg (groupSyms (op, data)) p = { p with opcode := some op, regs := r, index := data.length } := by
  simp only [List.mem_cons, List.not_mem_nil, or_false, not_or] at ho
  obtain ⟨h12, h20, h24, h10, h18⟩ := ho
  rw [groupSyms, receiveAll_cons, Panel.receive_command hl hb hop ⟨h12, h20⟩,
    Panel.receive_registers (p := { p with opcode := some op, index := 0 }) hl hb rfl ⟨h24, h10, h18⟩ hr]
  simp

/-- A data byte of the RAM write, the cursor where the spec knows the RAM (20_memory.md R73). -/
theorem Panel.receive_ram (hop : p.opcode = some 0x24) (he : p.regs.dataEntry = cfg.dataEntryMode)
    (hc : p.regs.cursorInside = true) :
    p.receive cfg true b =
      { p with
        ram := p.ram.write (panelKey p.regs.xCounter p.regs.yCounter) b
        regs := p.regs.advance
        index := p.index + 1 } := by
  rw [p.receive_known cfg true b hl hb]
  simp [Panel.act, Panel.data, Panel.writeRam, Panel.wakes, hop, he, hc, hb]

/-- A data byte of the RAM write, the cursor elsewhere or in another mode. -/
theorem Panel.receive_ram_outside (hop : p.opcode = some 0x24)
    (h : p.regs.dataEntry ≠ cfg.dataEntryMode ∨ p.regs.cursorInside = false) :
    (p.receive cfg true b).lost = true ∧ (p.receive cfg true b).ram = [] ∧ (p.receive cfg true b).glass = [] := by
  have hw : ¬ (p.regs.dataEntry = cfg.dataEntryMode ∧ p.regs.cursorInside = true) := by
    rintro ⟨he, hc⟩
    rcases h with h | h
    · exact h he
    · rw [h] at hc; cases hc
  rw [p.receive_known cfg true b hl hb]
  simp only [Panel.act, Panel.data, Panel.writeRam, hop, hw, if_true, if_false]
  exact ⟨rfl, rfl, rfl⟩

end

section
variable {s : State} {i : Instr} {op : Byte} {data : List Byte}

/-- A command frame group of at most five symbols, as the panel receives it. -/
theorem exec_group_panel (ht : s.TransportOk 5) (hi : i ≠ .wrram) (hx : s.groupOf i = some (groupSyms (op, data)))
    (hn : data.length ≤ 4) : ∃ t, exec i s = .next t ∧ t.panel = receiveAll s.cfg (groupSyms (op, data)) s.panel :=
  ⟨_, exec_group hi hx (s.transportOk_mono ht (by simpa [groupSyms] using Nat.lt_succ_of_le hn)), by simp⟩

/-- WRRAM, as the panel receives it. -/
theorem exec_wrram_panel (ht : s.TransportOk (s.len.toNat + 1)) :
    ∃ t, exec .wrram s = .next t ∧ t.panel = receiveAll s.cfg ((false, 0x24) :: s.bufferBytes.map fun b => (true, b)) s.panel :=
  ⟨_, exec_wrram ht, by simp⟩

variable (ht : s.TransportOk 5) (hl : s.panel.lost = false) (hb : s.panel.busy = false)
include ht hl hb

/-- A panel command that writes registers: the RAM and the glass stay. -/
theorem exec_writes_registers {r : PanelRegs} (hi : i ≠ .wrram) (hx : s.groupOf i = some (groupSyms (op, data)))
    (hn : data.length ≤ 4) (hop : panelOpcodes.contains op = true) (ho : op ∉ [0x12, 0x20, 0x24, 0x10, 0x18])
    (hr : s.panel.regs.storeFrom op 0 data = some r) :
    ∃ t, exec i s = .next t ∧ t.panel.ram = s.panel.ram ∧ t.panel.glass = s.panel.glass ∧ t.panel.regs = r := by
  obtain ⟨t, he, hp⟩ := exec_group_panel ht hi hx hn
  rw [Panel.receive_group hl hb hop ho hr] at hp
  exact ⟨t, he, by rw [hp], by rw [hp], by rw [hp]⟩

theorem exec_tempsen_panel :
    ∃ t, exec .tempsen s = .next t ∧ t.panel.ram = s.panel.ram ∧ t.panel.glass = s.panel.glass ∧
      t.panel.regs = { s.panel.regs with tempSensor := s.cfg.tempSensor } := by
  obtain ⟨t, he, hp⟩ := exec_group_panel (i := .tempsen) (op := 0x18) (data := [s.cfg.tempSensor]) ht (by simp) rfl (by simp)
  simp only [groupSyms, List.map_cons, List.map_nil, receiveAll_cons, receiveAll_nil] at hp
  rw [Panel.receive_command hl hb (by decide) (by decide),
    Panel.receive_register (p := { s.panel with opcode := some 0x18, index := 0 }) hl hb rfl (by decide) rfl] at hp
  exact ⟨t, he, by rw [hp], by rw [hp], by rw [hp]⟩

/-- SWRESET leaves registers and RAM unspecified (log 16). -/
theorem exec_swreset_panel :
    ∃ t, exec .swreset s = .next t ∧ t.panel.ram = [] ∧ t.panel.glass = s.panel.glass ∧ t.panel.lost = false ∧
      t.panel.regs = PanelRegs.free s.panel.draws := by
  obtain ⟨t, he, hp⟩ := exec_group_panel (i := .swreset) (op := 0x12) (data := []) ht (by simp) rfl (by simp)
  simp only [groupSyms, List.map_nil, receiveAll_cons, receiveAll_nil, Panel.receive_known _ _ _ _ hl hb] at hp
  exact ⟨t, he, by rw [hp]; rfl, by rw [hp]; rfl, by rw [hp]; exact hl, by rw [hp]; rfl⟩

/-- DSLEEP leaves nothing to be assumed but the byte it sends (log 21). -/
theorem exec_dsleep_panel :
    ∃ t, exec .dsleep s = .next t ∧ t.panel.ram = [] ∧ t.panel.glass = s.panel.glass ∧ t.panel.lost = true ∧
      t.panel.regs = { PanelRegs.free s.panel.draws with sleepCtl := s.cfg.sleepMode } := by
  obtain ⟨t, he, hp⟩ := exec_group_panel (i := .dsleep) (op := 0x10) (data := [s.cfg.sleepMode]) ht (by simp) rfl (by simp)
  simp only [groupSyms, List.map_cons, List.map_nil, receiveAll_cons, receiveAll_nil] at hp
  rw [Panel.receive_command hl hb (by decide) (by decide),
    Panel.receive_known { s.panel with opcode := some 0x10, index := 0 } _ _ _ hl hb] at hp
  exact ⟨t, he, by rw [hp]; rfl, by rw [hp]; rfl, by rw [hp]; rfl, by rw [hp]; rfl⟩

/-- ACTIVATE makes the glass unknown and starts a refresh where the option register holds 0xF7 (log 20). -/
theorem exec_activate_panel :
    ∃ t, exec .activate s = .next t ∧ t.panel.ram = s.panel.ram ∧ t.panel.glass = [] ∧ t.panel.regs = s.panel.regs ∧
      (t.panel.refreshing = true ↔ s.panel.regs.updCtl2 = 0xF7) := by
  obtain ⟨t, he, hp⟩ := exec_group_panel (i := .activate) (op := 0x20) (data := []) ht (by simp) rfl (by simp)
  simp only [groupSyms, List.map_nil, receiveAll_cons, receiveAll_nil, Panel.receive_known _ _ _ _ hl hb] at hp
  refine ⟨t, he, by rw [hp]; rfl, by rw [hp]; rfl, by rw [hp]; rfl, ?_⟩
  rw [hp]
  exact beq_iff_eq

/-- WRRAM of an empty buffer. -/
theorem exec_wrram_empty_panel (hn : s.len = 0) :
    ∃ t, exec .wrram s = .next t ∧ t.panel.ram = s.panel.ram ∧ t.panel.glass = s.panel.glass ∧ t.panel.regs = s.panel.regs := by
  obtain ⟨t, he, hp⟩ := exec_wrram_panel (s := s) (s.transportOk_mono ht (by simp [hn]))
  have hbytes : s.bufferBytes = [] := by simp [State.bufferBytes, hn]
  rw [hbytes, List.map_nil, receiveAll_cons, receiveAll_nil, Panel.receive_command hl hb (by decide) (by decide)] at hp
  exact ⟨t, he, by rw [hp], by rw [hp], by rw [hp]⟩

/-- WRRAM of one byte. -/
theorem exec_wrram_one_panel (hn : s.len = 1) (hd : s.panel.regs.dataEntry = s.cfg.dataEntryMode)
    (hc : s.panel.regs.cursorInside = true) :
    ∃ t, exec .wrram s = .next t ∧ t.panel.glass = s.panel.glass ∧ t.panel.regs = s.panel.regs.advance ∧
      ∀ a, t.panel.ram.read? a =
        if a = panelKey s.panel.regs.xCounter s.panel.regs.yCounter then some (s.memRead 0) else s.panel.ram.read? a := by
  obtain ⟨t, he, hp⟩ := exec_wrram_panel (s := s) (s.transportOk_mono ht (by simp [hn]))
  have hbytes : s.bufferBytes = [s.memRead 0] := by simp [State.bufferBytes, hn]
  rw [hbytes, List.map_cons, List.map_nil, receiveAll_cons, receiveAll_cons, receiveAll_nil,
    Panel.receive_command hl hb (by decide) (by decide),
    Panel.receive_ram (p := { s.panel with opcode := some 0x24, index := 0 }) hl hb rfl hd hc] at hp
  exact ⟨t, he, by rw [hp], by rw [hp], fun a => by rw [hp]; exact Memory.read?_write _ _ _ _⟩

end

/-- A data byte sent by itself, as the panel receives it. -/
theorem exec_dat_panel {s : State} (b : Byte) (ht : s.TransportOk 1) :
    ∃ t, exec (.dat b) s = .next t ∧ t.panel = s.panel.receive s.cfg true b := by
  obtain ⟨ix, -, he⟩ := exec_sent (s := s) (.inr (.inr ⟨b, rfl, rfl⟩)) ht
  exact ⟨_, he, by simp⟩

/-- Settles O18: the command frame group of each command at a known and idle panel. -/
theorem commandsWritePanelRegisters : Obligations.CommandsWritePanelRegisters := by
  constructor
  · intro s ht hl hb
    have registers : ∀ {i : Instr} (op : Byte) (data : List Byte) {r : PanelRegs}, i ≠ .wrram →
        s.groupOf i = some (groupSyms (op, data)) → data.length ≤ 4 → panelOpcodes.contains op = true →
        op ∉ [0x12, 0x20, 0x24, 0x10, 0x18] → s.panel.regs.storeFrom op 0 data = some r →
        ∃ t, exec i s = .next t ∧ t.panel.ram = s.panel.ram ∧ t.panel.glass = s.panel.glass ∧ t.panel.regs = r :=
      fun op data {r} => exec_writes_registers ht hl hb
    refine ⟨?_, ?_, fun xs xe => ?_, fun ys ye => ?_, ?_, ?_, ?_, ?_, exec_tempsen_panel ht hl hb, ?_,
      exec_swreset_panel ht hl hb, exec_dsleep_panel ht hl hb, exec_activate_panel ht hl hb,
      exec_wrram_empty_panel ht hl hb, exec_wrram_one_panel ht hl hb⟩
    · exact registers 0x01 [0xF9, 0x00, s.cfg.gateScan] (by simp) rfl (by simp) (by decide) (by decide) rfl
    · exact registers 0x11 [s.cfg.dataEntryMode] (by simp) rfl (by simp) (by decide) (by decide) rfl
    · exact registers 0x44 [xByte xs, xByte xe] (by simp) (by simp [State.groupOf, groupSyms, xByte_ofNat]) (by simp)
        (by decide) (by decide) rfl
    · exact registers 0x45 [yLow ys, yHigh ys, yLow ye, yHigh ye] (by simp)
        (by simp [State.groupOf, groupSyms, yLow_ofNat, yHigh_ofNat]) (by simp) (by decide) (by decide) rfl
    · exact registers 0x4E [0x00] (by simp) rfl (by simp) (by decide) (by decide) rfl
    · exact registers 0x4F [0x00, 0x00] (by simp) rfl (by simp) (by decide) (by decide) rfl
    · exact registers 0x3C [s.cfg.borderWaveform] (by simp) rfl (by simp) (by decide) (by decide) rfl
    · exact registers 0x21 [s.cfg.updateCtrlA, s.cfg.updateCtrlB] (by simp) rfl (by simp) (by decide) (by decide) rfl
    · exact registers 0x22 [0xF7] (by simp) rfl (by simp) (by decide) (by decide) rfl
  · intro b s ht hl hb hop
    obtain ⟨t, he, hp⟩ := exec_dat_panel b ht
    constructor
    · intro hd hc
      rw [Panel.receive_ram hl hb hop hd hc] at hp
      exact ⟨t, he, by rw [hp]; exact hop, by rw [hp]; exact hl, by rw [hp]; exact hb, by rw [hp], by rw [hp],
        fun a => by rw [hp]; exact Memory.read?_write _ _ _ _⟩
    · intro hout
      obtain ⟨hlost, hram, hglass⟩ := Panel.receive_ram_outside (cfg := s.cfg) (b := b) hl hb hop hout
      exact ⟨t, he, by rw [hp, hlost], by rw [hp, hram], by rw [hp, hglass]⟩

end Sys2Proof.Machine
end

section
/-! O20: a panel of which nothing may be assumed stays one until an INIT completes, and its memories stay unknown. -/

namespace Sys2Proof.Machine

/-! ### The panel's record -/

/-- `State.LostInv`, as a property of the panel alone (`lostInv_iff`). -/
def Panel.LostSound (p : Panel) : Prop :=
  (p.lost = true → p.ram = [] ∧ p.refreshing = false) ∧ (p.pending.isSome = true → p.lost = true)

theorem lostInv_iff (s : State) : s.LostInv ↔ s.panel.LostSound := Iff.rfl

/-- Nothing may be assumed of the panel and nothing is pending (93_implementation_defined.md U1). -/
structure Panel.Unassumed (p : Panel) : Prop where
  lost : p.lost = true
  ram : p.ram = []
  refreshing : p.refreshing = false
  pending : p.pending = none

section
variable {p : Panel}

theorem Panel.Unassumed.lostSound (h : p.Unassumed) : p.LostSound := ⟨fun _ => ⟨h.ram, h.refreshing⟩, fun _ => h.lost⟩

theorem Panel.lostSound_of_known (hl : p.lost = false) (hp : p.pending = none) : p.LostSound :=
  ⟨fun h => by simp [hl] at h, fun h => by simp [hp] at h⟩

/-- Nothing is pending of a panel that is known. -/
theorem Panel.LostSound.pending_of_known (h : p.LostSound) (hl : p.lost = false) : p.pending = none := by
  cases hp : p.pending with
  | none => rfl
  | some r => exact absurd (h.2 (by simp [hp])) (by simp [hl])

theorem Panel.lose_unassumed (p : Panel) : p.lose.Unassumed := ⟨rfl, rfl, rfl, rfl⟩

theorem Panel.latchReset_lostSound (p : Panel) : p.latchReset.LostSound := by
  refine ⟨fun _ => ⟨rfl, rfl⟩, fun h => ?_⟩
  rw [Panel.latchReset_lost]
  by_contra hl
  simp [Panel.latchReset, hl] at h

theorem Panel.LostSound.sampled (h : p.LostSound) (l : Bool) : (p.sampled l).LostSound := by
  refine ⟨fun hl => ?_, by simpa using h.2⟩
  rw [Panel.sampled_lost] at hl
  obtain ⟨hram, hrefr⟩ := h.1 hl
  cases l
  · exact ⟨hram, rfl⟩
  · exact ⟨hram, hrefr⟩

theorem Panel.LostSound.recovered (h : p.LostSound) : p.recovered.LostSound := by
  unfold Panel.recovered
  split
  · exact h
  · exact Panel.lostSound_of_known rfl rfl

/-- What a byte does inside the panel leaves nothing to be assumed, or leaves what may be assumed as it was. -/
theorem Panel.act_cases (cfg : Params) (dc : Bool) (b : Byte) (p : Panel) :
    (p.act cfg dc b).Unassumed ∨ ((p.act cfg dc b).lost = p.lost ∧ (p.act cfg dc b).pending = p.pending) := by
  unfold Panel.act
  split
  · unfold Panel.data
    split
    · exact .inl p.lose_unassumed
    · split
      · unfold Panel.writeRam
        split
        · exact .inr ⟨rfl, rfl⟩
        · exact .inl p.lose_unassumed
      · split
        · exact .inl p.lose_unassumed
        · split
          · exact .inl ⟨rfl, rfl, rfl, rfl⟩
          · exact .inr ⟨rfl, rfl⟩
  · unfold Panel.command
    split
    · exact .inr ⟨rfl, rfl⟩
    · split
      · exact .inr ⟨rfl, rfl⟩
      · split
        · exact .inr ⟨rfl, rfl⟩
        · exact .inl p.lose_unassumed

theorem Panel.actLost_lostSound (cfg : Params) (dc : Bool) (b : Byte) (p : Panel) : (p.actLost cfg dc b).LostSound := by
  unfold Panel.actLost
  split
  · exact p.lose_unassumed.lostSound
  · dsimp only
    split
    · exact (Panel.lose_unassumed _).lostSound
    · exact ⟨fun _ => ⟨rfl, rfl⟩, fun _ => rfl⟩

theorem Panel.LostSound.receive (h : p.LostSound) (cfg : Params) (dc : Bool) (b : Byte) : (p.receive cfg dc b).LostSound := by
  have key : Panel.LostSound (if p.busy then p.lose else if p.lost then p.actLost cfg dc b else p.act cfg dc b) := by
    split
    · exact p.lose_unassumed.lostSound
    · split
      · exact p.actLost_lostSound cfg dc b
      · next hl =>
        have hl : p.lost = false := by simpa using hl
        rcases p.act_cases cfg dc b with hu | ⟨hlost, hpending⟩
        · exact hu.lostSound
        · exact Panel.lostSound_of_known (hlost.trans hl) (hpending.trans (h.pending_of_known hl))
  exact key

/-- The hazard of 20_memory.md R72. -/
theorem Panel.receive_busy_forgets (cfg : Params) (dc : Bool) (b : Byte) (h : p.busy = true) :
    (p.receive cfg dc b).ram = [] ∧ (p.receive cfg dc b).glass = [] ∧
      (p.receive cfg dc b).regs = PanelRegs.free p.draws ∧ (p.receive cfg dc b).hazard = true := by
  simp [Panel.receive, Panel.lose, Panel.scramble, h]

theorem receiveAll_lostSound (cfg : Params) (xs : List Sym) (h : p.LostSound) : (receiveAll cfg xs p).LostSound := by
  induction xs generalizing p with
  | nil => exact h
  | cons x xs ih => exact ih (h.receive cfg x.1 x.2)

theorem receiveAll_lost (cfg : Params) (xs : List Sym) (h : p.lost = true) : (receiveAll cfg xs p).lost = true := by
  induction xs generalizing p with
  | nil => exact h
  | cons x xs ih => exact ih (p.receive_lost cfg x.1 x.2 h)

end

/-! ### Every step keeps the RAM unknown -/

theorem State.sendByte_lostInv (s : State) (dc : Bool) (b : Byte) (h : s.LostInv) : (s.sendByte dc b).state.LostInv := by
  rw [s.sendByte_state]
  split
  · rw [lostInv_iff, State.raise_panel]
    split
    · exact (Panel.lose_unassumed _).lostSound
    · exact s.panel.lose_unassumed.lostSound
  · rw [lostInv_iff, State.afterSyms_panel]
    exact receiveAll_lostSound _ _ h

/-- Every operation of the machine keeps the panel's record sound: only bytes, samples, errors, the reset pulse and the end of
INIT touch it. -/
theorem kept_lostInv : Kept State.LostInv where
  byte s dc b h := s.sendByte_lostInv dc b h
  finish s h := by
    rw [lostInv_iff, State.finish_panel]
    split
    · exact Panel.LostSound.recovered h
    · exact h
  raise s e n h := by
    rw [lostInv_iff, State.raise_panel]
    split
    · exact s.panel.lose_unassumed.lostSound
    · exact h
  reset s _ := by
    rw [lostInv_iff, State.resetPulse_panel]
    exact s.panel.latchReset_lostSound
  pollOnce _ h := Panel.LostSound.sampled h _
  idx _ _ h := h
  present _ _ _ h := h
  accept _ _ h := h
  opened _ h := h
  transport _ h := h
  moved _ _ _ _ h := h
  setPS _ _ h := h
  build _ _ _ _ _ h := h
  load _ h := h
  startWait _ h := h
  delay _ _ h := h

/-! ### No step but the last of INIT makes the panel known -/

section
variable {s t : State} {op : Instr} {pos k : Nat}

/-- The panel is as it was where the sequencer moves on, unless an INIT completes. -/
theorem State.advance_panel_of_more (hq : s.seq = .running op pos k) (hmore : op = .init → pos + 1 < (program op).length) :
    s.advance.panel = s.panel := by
  rcases s.advance_panel with h | ⟨hi, -, -⟩
  · exact h
  · rw [s.advance_more hq (hmore (by simpa [hq] using hi))]

/-- A micro-step that does not complete an INIT. -/
theorem MicroStep.lost {m : Micro} (h : MicroStep s m t) (hq : s.seq = .running op pos k)
    (hmore : op = .init → pos + 1 < (program op).length) (hl : s.panel.lost = true) : t.panel.lost = true := by
  have advance : ∀ {u : State} (n : Nat), u.seq = s.seq.after n → u.panel.lost = true → u.advance.panel.lost = true := by
    intro u n hu hul
    rwa [State.advance_panel_of_more (k := k + n) (by rw [hu, hq]; rfl) hmore]
  cases h with
  | resetPulse => exact advance 6 s.resetPulse_seq (by simpa using hl)
  | startWait => exact advance 0 (by simp) hl
  | pollLow hb => exact advance 1 s.pollOnce_seq (by simpa using hl)
  | pollTimedOut hb ht => simp [hq]
  | pollHigh hb => simpa using hl
  | enter p => exact advance 0 (by simp) hl
  | build c => exact advance 0 (by simp) hl
  | loadImage => exact advance 0 (by simp) hl
  | sent hm ys ix => exact advance (4 * ys.length) (by simp) (by simpa using receiveAll_lost s.cfg ys hl)
  | failed ys ix x => simp [State.afterFailedByte, hq]

/-- A host operation leaves the panel's record alone until its first micro-step. -/
theorem exec_host_panel {i : Instr} (hi : i.format = .hostWord) (h : exec i s = .next t) : t.panel = s.panel := by
  obtain ⟨-, hcases⟩ := exec_host_cases hi h
  rcases hcases with ⟨rfl, -⟩ | ⟨-, -, rfl⟩ | ⟨m, -, -, -, rfl⟩ | ⟨m, -, -, -, -, rfl⟩ | ⟨m, -, -, -, -, rfl⟩
  all_goals rfl

/-- The micro-step that makes a lost panel known is the last one of INIT. -/
theorem MicroStep.completes_init {m : Micro} (h : MicroStep s m t) (hq : s.seq = .running op pos k)
    (hm : (program op)[pos]? = some m) (hs : s.panel.lost = true) (ht : t.panel.lost = false) : op = .init ∧ pos = 19 := by
  by_contra hne
  have hpos : pos < (program op).length := (List.getElem?_eq_some_iff.mp hm).1
  have hmore : op = .init → pos + 1 < (program op).length := by
    rintro rfl
    change pos < 20 at hpos
    change pos + 1 < 20
    have : pos ≠ 19 := fun h19 => hne ⟨rfl, h19⟩
    omega
  rw [h.lost hq hmore hs] at ht
  cases ht

end

/-- Settles O20: a byte to a busy panel forgets all of it; a micro-step keeps a lost panel lost unless it is INIT's last, and every
operation keeps the RAM of a lost panel unknown. -/
theorem nothingIsAssumedUntilInitCompletes : Obligations.NothingIsAssumedUntilInitCompletes := by
  refine ⟨fun cfg dc b p hb => ?_, fun s t ht hs hk => ?_, fun s t h ht => kept_lostInv.step h ht⟩
  · obtain ⟨hlost, hpending⟩ := p.receive_busy_lost cfg dc b hb
    exact ⟨hlost, hpending, Panel.receive_busy_forgets cfg dc b hb⟩
  · have changed : t.panel ≠ s.panel := fun h => by rw [h, hs] at hk; cases hk
    rcases step_cases ht with ⟨-, -, rfl⟩ | ⟨r, rest, i, -, -, hd, he⟩ | ⟨op, pos, k, m, hq, hm, he⟩
    · exact absurd rfl changed
    · exact absurd (exec_host_panel (decodeHostWord_format hd) he) changed
    · obtain ⟨rfl, rfl⟩ := (microStep_of_runMicro hm he).completes_init hq hm hs hk
      rw [step_enter_last (p := .configured) hq rfl (by decide)] at ht
      cases ht
      exact ⟨19, k, hq, rfl, rfl, rfl, rfl⟩

end Sys2Proof.Machine
end

section
/-! O32: the place of a pixel in its buffer, and the colour a fill gives it. -/

namespace Sys2Proof.Machine

section
variable {w h x y x' y' : Coord}

theorem pixelIndex_rowBytes (w x y : Coord) : pixelIndex (rowBytes w) x y = y.toNat * ((w.toNat + 7) / 8) + x.toNat / 8 := by
  rw [pixelIndex, rowBytes_toNat]

/-- A pixel of the picture lies inside the buffer (20_memory.md R61). -/
theorem pixelIndex_lt_bufferLen (hx : x < w) (hy : y < h) :
    pixelIndex (rowBytes w) x y < (bufferLen (rowBytes w) h).toNat := by
  have hx : x.toNat < w.toNat := hx
  have hy : y.toNat < h.toNat := hy
  rw [bufferLen_toNat, rowBytes_toNat, pixelIndex_rowBytes]
  calc y.toNat * ((w.toNat + 7) / 8) + x.toNat / 8
      < y.toNat * ((w.toNat + 7) / 8) + (w.toNat + 7) / 8 := by omega
    _ = (y.toNat + 1) * ((w.toNat + 7) / 8) := by ring
    _ ≤ h.toNat * ((w.toNat + 7) / 8) := Nat.mul_le_mul_right _ hy
    _ = (w.toNat + 7) / 8 * h.toNat := Nat.mul_comm _ _

theorem pixelBit_lt (msbFirst : Bool) (x : Coord) : pixelBit msbFirst x < 8 := by
  unfold pixelBit
  split <;> omega

/-- The bit tells the column within its byte. -/
theorem mod_eq_of_pixelBit_eq {msbFirst : Bool} (hb : pixelBit msbFirst x = pixelBit msbFirst x') :
    x.toNat % 8 = x'.toNat % 8 := by
  cases msbFirst <;> simp [pixelBit] at hb <;> omega

/-- The byte tells the row, and the column up to its place in the byte. -/
theorem div_eq_of_pixelIndex_eq (hx : x < w) (hx' : x' < w) (hi : pixelIndex (rowBytes w) x y = pixelIndex (rowBytes w) x' y') :
    y.toNat = y'.toNat ∧ x.toNat / 8 = x'.toNat / 8 := by
  have hx : x.toNat < w.toNat := hx
  have hx' : x'.toNat < w.toNat := hx'
  rw [pixelIndex_rowBytes, pixelIndex_rowBytes] at hi
  have hc : x.toNat / 8 < (w.toNat + 7) / 8 := by omega
  have hc' : x'.toNat / 8 < (w.toNat + 7) / 8 := by omega
  have hpos : 0 < (w.toNat + 7) / 8 := by omega
  have hdiv := congrArg (· / ((w.toNat + 7) / 8)) hi
  have hmod := congrArg (· % ((w.toNat + 7) / 8)) hi
  simpa [Nat.mul_add_div, Nat.mul_comm _ ((w.toNat + 7) / 8), Nat.mod_eq_of_lt, Nat.div_eq_of_lt, hc, hc', hpos] using
    And.intro hdiv hmod

/-- Two pixels never share a bit (R61, R63). -/
theorem pixel_eq_of_same_place {msbFirst : Bool} (hx : x < w) (hx' : x' < w)
    (hi : pixelIndex (rowBytes w) x y = pixelIndex (rowBytes w) x' y') (hb : pixelBit msbFirst x = pixelBit msbFirst x') :
    x = x' ∧ y = y' := by
  obtain ⟨hrow, hcol⟩ := div_eq_of_pixelIndex_eq hx hx' hi
  have hbit := mod_eq_of_pixelBit_eq hb
  exact ⟨BitVec.eq_of_toNat_eq (by omega), BitVec.eq_of_toNat_eq hrow⟩

/-- Every byte of a built buffer is the fill (43_frame_buffer.md R201). -/
theorem State.memRead_buildBuffer (s : State) (rot : Rotation) (c : Byte) {i : Nat} (hi : i < (bufferLen (rowBytes w) h).toNat) :
    (s.buildBuffer w h rot c).memRead i = c := by
  rw [State.memRead, State.buildBuffer_fb, Memory.read?_ofBytes_zero, List.getElem?_replicate, if_pos hi, Option.getD_some]

/-- A pixel of a built buffer is its bit of the fill (20_memory.md R62). -/
theorem State.pixel_buildBuffer (s : State) (rot : Rotation) (c : Byte) (hx : x < w) (hy : y < h) :
    (s.buildBuffer w h rot c).pixel x y = c.getLsbD (pixelBit s.cfg.pixelMsbFirst x) := by
  rw [State.pixel, State.buildBuffer_rowb, State.buildBuffer_cfg, s.memRead_buildBuffer rot c (pixelIndex_lt_bufferLen hx hy)]

end

/-- Settles O32: the place is `pixelIndex` and `pixelBit`, which are injective inside the picture, and a pixel of a fill is a bit of
it. -/
theorem pixelLayout : Obligations.PixelLayout := by
  intro w h rot c s x y hx hy
  rw [← pixelIndex_rowBytes]
  have hbit := pixelBit_lt s.cfg.pixelMsbFirst x
  refine ⟨rfl, pixelIndex_lt_bufferLen hx hy, ?_, ?_, fun x' y' hx' _ hi hb => pixel_eq_of_same_place hx hx' hi hb⟩
  · rintro rfl
    rw [s.pixel_buildBuffer rot _ hx hy, show (0xFF : Byte) = BitVec.allOnes 8 from rfl, BitVec.getLsbD_allOnes]
    simpa using hbit
  · rintro rfl
    rw [s.pixel_buildBuffer rot _ hx hy]
    exact BitVec.getLsbD_zero

end Sys2Proof.Machine
end

section
/-! O46: the runs of the paints from their first micro-step to their end, and what the glass shows then. -/

namespace Sys2Proof.Machine

/-! ### The runs -/

/-- `s` after a paint of the bytes `data` over the fill `c`, its wait with `m` high samples (44_orchestrator.md R233, R235). -/
def State.afterPaint (s : State) (c : Byte) (data : List Byte) (m : Nat) : State :=
  { s with
    pinCS := true
    pinDC := false
    ps := .configured
    seq := .idle
    sr := 0x20
    srBits := 0
    w := 122
    h := 250
    rot := s.cfg.rot
    color := c
    rowb := 16
    len := 4000
    lw := logicalW s.cfg.rot 122 250
    lh := logicalH s.cfg.rot 122 250
    fb := []
    idx := 4000
    polls := m + 1
    T := s.T ++ frames (paintSyms data) ++ waitTrace m
    panel := (receiveAll s.cfg (paintSyms data) s.panel).sampled false
    env := s.env.afterSamples (m + 1) }

/-- The load of PAINT_IMAGE (43_frame_buffer.md R209). -/
theorem step_loadImage {s : State} {k : Nat} (hq : s.seq = .running .paintImage 1 k) (hp : s.port.length = 4000)
    (hl : s.len = 4000) :
    step s = .next { s with fb := Memory.ofBytes 0 s.port, port := [], seq := .running .paintImage 2 k } := by
  have htake : s.port.take s.len.toNat = s.port := List.take_of_length_le (by rw [hl, hp]; decide)
  rw [step_more (n := 0) (t := s.loadImage) hq rfl rfl (by simp) (by decide)]
  simp [State.loadImage, htake]

section
variable {s : State} {k m : Nat} (hps : s.ps = .configured) (ht : s.TransportOk 4017)
  (ha : s.env.busyAnswers (m + 1) = waitAnswers m) (hb : ∀ n, s.cfg.busyTimeoutPolls = some n → m < n)
include hps ht ha hb

/-- PAINT and CLEAR from their first micro-step to their end (44_orchestrator.md R233, R234). -/
theorem runFor_paint {op : Instr} {c : Byte} (hprog : program op = paintProgram c) (hq : s.seq = .running op 0 k) :
    ∃ n, runFor n s = .next (s.afterPaint c (List.replicate 4000 c) m) := by
  have hbuild := runFor_of_step (step_build s (c := c) hq (by rw [hprog]; rfl) (by rw [hprog]; exact (by decide : 1 < 12)))
  exact runFor_trans hbuild (runFor_showBuffer _ op 1 k m List.length_replicate (by rw [hprog]; rfl) rfl rfl rfl rfl rfl hps
    ((State.transportOk_congr rfl rfl).mpr ht) ha hb)

/-- PAINT_IMAGE from its first micro-step to its end (R235). -/
theorem runFor_paintImage (hq : s.seq = .running .paintImage 0 k) (hp : s.port.length = 4000) :
    ∃ n, runFor n s = .next { s.afterPaint 0xFF s.port m with port := [] } := by
  have hbuild := runFor_of_step (step_build s hq rfl (by decide))
  have hload := runFor_trans hbuild (runFor_of_step (step_loadImage rfl hp rfl))
  exact runFor_trans hload (runFor_showBuffer _ .paintImage 2 k m hp rfl rfl rfl rfl rfl rfl hps
    ((State.transportOk_congr rfl rfl).mpr ht) ha hb)

end

/-! ### Acceptance -/

section
variable {s : State} (hq : s.seq = .idle) (hp : s.ps = .configured)
include hq hp

theorem exec_paint_accepts {c : Byte} (hc : isColour c = true) : exec (.paint c) s = .next (s.accept (.paint c)) := by
  simp [exec, execPaint, State.requireIdle, State.requireConfigured, hq, hp, hc]

theorem exec_clear_accepts : exec .clear s = .next (s.accept .clear) := by
  simp [exec, execClear, State.requireIdle, State.requireConfigured, hq, hp]

theorem exec_paintImage_accepts (hl : s.port.length = 4000) : exec .paintImage s = .next (s.accept .paintImage) := by
  simp [exec, execPaintImage, State.requireIdle, State.requireConfigured, hq, hp, hl, Config.fbLen]

end

/-! ### The glass -/

/-- The panel is known, idle and in the data-entry mode the engine selects. -/
structure Panel.Ready (cfg : Params) (p : Panel) : Prop where
  lost : p.lost = false
  busy : p.busy = false
  dataEntry : p.regs.dataEntry = cfg.dataEntryMode

/-- The address of a pixel of the panel holds the byte of the buffer it lies in (20_memory.md R61, R68). -/
theorem panelKey_pixel {x y : Coord} (hx : x.toNat < 122) :
    panelKey (xByte x) y = (16 * y.toNat + x.toNat / 8) / 16 * 256 + (16 * y.toNat + x.toNat / 8) % 16 := by
  rw [panelKey, xByte_toNat]
  omega

/-- The panel is ready and its glass shows the buffer `data` at every pixel (20_memory.md R74). -/
structure Panel.Shows (cfg : Params) (data : List Byte) (p : Panel) : Prop extends p.Ready cfg where
  white? : ∀ x y : Coord, x.toNat < 122 → y.toNat < 250 →
    p.white? cfg x y = (data[16 * y.toNat + x.toNat / 8]?).map fun b => b.getLsbD (pixelBit cfg.pixelMsbFirst x)

/-- A ready panel shows what a paint has sent it, its refresh over. -/
theorem Panel.Ready.shows_paint {cfg : Params} {p : Panel} {data : List Byte} (h : p.Ready cfg) (hd : data.length = 4000) :
    ((receiveAll cfg (paintSyms data) p).sampled false).Shows cfg data := by
  obtain ⟨hlost, hbusy, hentry, hglass⟩ := Panel.after_paint hd h.lost h.busy h.dataEntry
  refine ⟨⟨hlost, hbusy, hentry⟩, fun x y hx hy => ?_⟩
  rw [Panel.white?, panelKey_pixel hx, hglass _ (by omega)]

/-- Settles O46: each of the four paints is accepted and runs to its end, and a ready panel shows what it was sent. -/
theorem glassShowsTheBuffer : Obligations.GlassShowsTheBuffer := by
  intro s i data m hi hq hps ht ha hb hlost hbusy hentry
  have hd : data.length = 4000 := by
    rcases hi with ⟨-, rfl⟩ | ⟨-, rfl⟩ | ⟨-, rfl⟩ | ⟨-, -, hd⟩
    case inr.inr.inr => exact hd
    all_goals exact List.length_replicate
  have hrun : ∃ c port, exec i s = .next (s.accept i) ∧
      ∃ n, runFor n (s.accept i) = .next { (s.accept i).afterPaint c data m with port := port } := by
    have fill : ∀ {op c}, program op = paintProgram c →
        ∃ n, runFor n (s.accept op) = .next ((s.accept op).afterPaint c (List.replicate 4000 c) m) := fun hprog =>
      runFor_paint (s := s.accept _) hps ((State.transportOk_congr rfl rfl).mpr ht) ha hb hprog rfl
    rcases hi with ⟨rfl, rfl⟩ | ⟨rfl, rfl⟩ | ⟨rfl, rfl⟩ | ⟨rfl, rfl, -⟩
    · exact ⟨0x00, s.port, exec_paint_accepts hq hps rfl, fill rfl⟩
    · exact ⟨0xFF, s.port, exec_paint_accepts hq hps rfl, fill rfl⟩
    · exact ⟨0xFF, s.port, exec_clear_accepts hq hps, fill rfl⟩
    · exact ⟨0xFF, [], exec_paintImage_accepts hq hps hd,
        runFor_paintImage (s := s.accept .paintImage) hps ((State.transportOk_congr rfl rfl).mpr ht) ha hb rfl hd⟩
  obtain ⟨c, port, haccept, n, hn⟩ := hrun
  have hshows := Panel.Ready.shows_paint ⟨hlost, hbusy, hentry⟩ hd
  exact ⟨_, n, _, haccept, hn, rfl, rfl, hshows.lost, hshows.busy, hshows.dataEntry, hshows.white?⟩

end Sys2Proof.Machine
end

section
/-! O1, O2, O3: the decoder and the encoder of each format undo one another, as far as the encoding holds the operands. -/

namespace Sys2Proof.Machine

/-! ### Words of two bytes -/

/-- The `n`-bit word of two bytes, low byte first: what `decode` makes of the bytes of a symbol and of a host word. -/
def wordOfBytes (n : Nat) (lo hi : Byte) : BitVec n := hi.setWidth n <<< 8 ||| lo.setWidth n

/-- The two bytes of a word, low byte first. -/
def bytesOfWord {n : Nat} (w : BitVec n) : List Byte := [w.setWidth 8, BitVec.ofNat 8 (w >>> 8).toNat]

theorem wordOfBytes_toNat {n : Nat} {lo hi : Byte} (hn : 8 ≤ n) (hhi : hi.toNat < 2 ^ (n - 8)) :
    (wordOfBytes n lo hi).toNat = hi.toNat * 2 ^ 8 + lo.toNat := by
  have hlo : lo.toNat < 2 ^ 8 := lo.isLt
  have hpow : 2 ^ n = 2 ^ (n - 8) * 2 ^ 8 := by rw [← Nat.pow_add, Nat.sub_add_cancel hn]
  rw [wordOfBytes, BitVec.toNat_or, BitVec.toNat_shiftLeft, BitVec.toNat_setWidth_of_le hn, BitVec.toNat_setWidth_of_le hn,
    Nat.shiftLeft_eq, Nat.mod_eq_of_lt (by omega), Nat.mul_comm, Nat.two_pow_add_eq_or_of_lt hlo]

/-- Taking a word of two bytes apart gives its bytes, the unused bits of the second being zero. -/
theorem bytesOfWord_wordOfBytes {n : Nat} {lo hi : Byte} (hn : 8 ≤ n) (hhi : hi.toNat < 2 ^ (n - 8)) :
    bytesOfWord (wordOfBytes n lo hi) = [lo, hi] := by
  have hw := wordOfBytes_toNat (lo := lo) hn hhi
  have hlow : (wordOfBytes n lo hi).setWidth 8 = lo := by
    apply BitVec.eq_of_toNat_eq
    rw [BitVec.toNat_setWidth, hw]
    omega
  have hhigh : (wordOfBytes n lo hi >>> 8).toNat = hi.toNat := by
    rw [BitVec.toNat_ushiftRight, hw, Nat.shiftRight_eq_div_pow]
    omega
  simp [bytesOfWord, hlow, hhigh]

/-! ### What is decoded encodes to what was read -/

/-- Only the host decoder refuses a value of an operand. -/
theorem wf_of_format_ne_hostWord {i : Instr} (hi : i.format ≠ .hostWord) : i.wf = true := by
  cases i with
  | paint c => exact absurd rfl hi
  | _ => rfl

theorem encode_decodeSymbol (w : Symbol) : encode (decodeSymbol w) = bytesOfWord w := by
  have hw := w.isLt
  have hhigh : (w >>> 8).toNat = w.toNat / 2 ^ 8 := by rw [BitVec.toNat_ushiftRight, Nat.shiftRight_eq_div_pow]
  have hbit : w.getLsbD 8 = decide (w.toNat / 2 ^ 8 % 2 = 1) := Nat.testBit_eq_decide_div_mod_eq
  unfold decodeSymbol
  split
  · next h =>
    rw [hbit, decide_eq_true_eq] at h
    rw [bytesOfWord, hhigh, show w.toNat / 2 ^ 8 = 1 by omega]
    rfl
  · next h =>
    rw [hbit, decide_eq_true_eq] at h
    rw [bytesOfWord, hhigh, show w.toNat / 2 ^ 8 = 0 by omega]
    rfl

theorem encode_of_decodeHostWord {w : HostWord} {i : Instr} (h : decodeHostWord w = .ok i) : encode i = bytesOfWord w := by
  have no : ∀ j, hostNoOperand j w = .ok i → encode j = [0, BitVec.ofNat 8 (w >>> 8).toNat] → encode i = bytesOfWord w := by
    intro j hj he
    unfold hostNoOperand at hj
    split at hj
    · next h0 => cases hj; rw [he, bytesOfWord, h0]
    · cases hj
  unfold decodeHostWord at h
  split at h
  case h_1 hc => cases h; simp [encode, bytesOfWord, hc]
  case h_3 hc =>
    split at h
    · cases h; simp [encode, bytesOfWord, hc]
    · cases h
  case h_7 => cases h
  all_goals
    rename_i hc
    exact no _ h (by rw [hc]; rfl)

theorem encode_of_decodeXWin {bs rest : List Byte} {i : Instr} (h : decodeXWin bs = .ok i rest) :
    encode i ++ rest = 0x44 :: bs := by
  unfold decodeXWin at h
  split at h
  · cases h; simp [encode]
  · cases h

theorem encode_of_decodeYWin {bs rest : List Byte} {i : Instr} (h : decodeYWin bs = .ok i rest) :
    encode i ++ rest = 0x45 :: bs := by
  unfold decodeYWin at h
  split at h
  · cases h; simp [encode]
  · cases h

theorem encode_of_decodeOpcode {op : Byte} {bs rest : List Byte} {i : Instr} (h : decodeOpcode op bs = .ok i rest) :
    encode i ++ rest = op :: bs := by
  unfold decodeOpcode at h
  split at h
  case h_15 => cases h
  all_goals
    rename_i hop
    obtain rfl := (BitVec.toNat_eq_nat.mp hop).2
  case h_4 => exact encode_of_decodeXWin h
  case h_5 => exact encode_of_decodeYWin h
  all_goals
    cases h
    rfl

/-- Settles O2: each format's decoder keeps all of what it read. -/
theorem encodeDecodeAgree : Obligations.EncodeDecodeAgree := by
  intro f bs i rest h
  have micro : i.format = f → f ≠ .hostWord → i.wf = true := fun hi hf => wf_of_format_ne_hostWord (hi ▸ hf)
  match f, bs, h with
  | .panelOpcode, op :: bs, h =>
    have hi := decodeOpcode_format h
    exact ⟨hi, micro hi nofun, encode_of_decodeOpcode h⟩
  | .busSymbol, lo :: hi :: bs, h =>
    have hf := decode_busSymbol_format h
    simp only [decode] at h
    split at h
    · next hhi =>
      cases h
      exact ⟨hf, micro hf nofun, by rw [encode_decodeSymbol, ← wordOfBytes, bytesOfWord_wordOfBytes (by decide) hhi]; rfl⟩
    · cases h
  | .hostWord, lo :: hi :: bs, h =>
    simp only [decode] at h
    split at h
    · next hhi =>
      cases hd : decodeHostWord (wordOfBytes 11 lo hi) with
      | ok j =>
        rw [← wordOfBytes, hd] at h
        cases h
        refine ⟨decodeHostWord_format hd, decodeHostWord_wf hd, ?_⟩
        rw [encode_of_decodeHostWord hd, bytesOfWord_wordOfBytes (by decide) hhi]
        rfl
      | error r => rw [← wordOfBytes, hd] at h; cases h
    · cases h

/-! ### What is encoded decodes to itself -/

theorem decode_encode_symbol (b : Byte) (rest : List Byte) :
    decode .busSymbol (b :: 0 :: rest) = .ok (.cmd b) rest ∧ decode .busSymbol (b :: 1 :: rest) = .ok (.dat b) rest := by
  constructor
  · simp [decode, decodeSymbol]
  · simp [decode, decodeSymbol]

/-- An encoding is read back as far as it holds the operands. -/
theorem decode_encode {i : Instr} (hi : i.wf = true) (rest : List Byte) :
    decode i.format (encode i ++ rest) = .ok i.canon rest := by
  cases i with
  | ramywin ys ye =>
    change Decoded.ok (.ramywin (yOfBytes (yLow ys) (yHigh ys)) (yOfBytes (yLow ye) (yHigh ye))) rest = _
    rw [yOfBytes_yLow_yHigh, yOfBytes_yLow_yHigh]
    rfl
  | cmd b => exact (decode_encode_symbol b rest).1
  | dat b => exact (decode_encode_symbol b rest).2
  | openSession m =>
    have hword : wordOfBytes 11 m 0 = BitVec.ofNat 11 m.toNat := by simp [wordOfBytes]
    change hostDecoded rest (decodeHostWord (wordOfBytes 11 m 0)) = _
    rw [hword, decodeHostWord_open]
    rfl
  | paint c => rcases isColour_cases hi with rfl | rfl <;> rfl
  | _ => rfl

theorem xCanon_eq {x : Coord} (h8 : x.toNat % 8 = 0) (hx : x.toNat < 2048) : xCanon x = x := by
  apply BitVec.eq_of_toNat_eq
  rw [xCanon, xOfByte_toNat, xByte_toNat]
  omega

theorem canon_eq {i : Instr} (h : ∀ xs xe, i ≠ .ramxwin xs xe) : i.canon = i := by
  cases i with
  | ramxwin xs xe => exact absurd rfl (h xs xe)
  | _ => rfl

/-- What the encoding of RAMXWIN drops, its address bytes do not hold either (R94). -/
theorem exec_canon (i : Instr) (s : State) : exec i.canon s = exec i s := by
  cases i with
  | ramxwin xs xe =>
    change execRamxwin (xCanon xs) (xCanon xe) s = execRamxwin xs xe s
    simp only [execRamxwin, xCanon, xByte_xOfByte]
  | _ => rfl

/-- Settles O1: what an encoding drops of RAMXWIN's columns is not sent either. -/
theorem decodeEncodeAgree : Obligations.DecodeEncodeAgree := by
  intro i hi
  refine ⟨decode_encode hi, exec_canon i, canon_eq, ?_⟩
  rintro xs xe rfl hs8 hs he8 he
  rw [Instr.canon, xCanon_eq hs8 hs, xCanon_eq he8 he]

/-- Settles O3: each word runs through the decoder of its width. -/
theorem tableWordsDecode : Obligations.TableWordsDecode := by
  unfold Obligations.TableWordsDecode
  decide

end Sys2Proof.Machine
end

section
/-! O4: the reserved host words, and the refusals of the host operations. -/

namespace Sys2Proof.Machine

/-! ### The operation code and the operand of a host word, as numbers -/

theorem hostWord_code (w : HostWord) : (w >>> 8).toNat = w.toNat / 256 := by
  rw [BitVec.toNat_ushiftRight, Nat.shiftRight_eq_div_pow]

theorem hostWord_arg_toNat (w : HostWord) : (w.setWidth 8).toNat = w.toNat % 256 := BitVec.toNat_setWidth 8 w

theorem isColour_iff_toNat (c : Byte) : isColour c = true ↔ c.toNat = 0x00 ∨ c.toNat = 0xFF := by
  simp [isColour, Config.black, Config.white, ← BitVec.toNat_inj]

theorem hostNoOperand_error_iff (i : Instr) (w : HostWord) :
    (∃ e, hostNoOperand i w = .error e) ↔ w.toNat % 256 ≠ 0 := by
  have harg : w.setWidth 8 = (0 : Byte) ↔ w.toNat % 256 = 0 := by
    rw [← BitVec.toNat_inj, hostWord_arg_toNat]
    rfl
  unfold hostNoOperand
  split
  · next h => simp [harg.mp h]
  · next h => simpa using mt harg.mpr h

/-- A word is reserved in the cases of 30_encoding.md R99, one for each operation code. -/
theorem decodeHostWord_error_iff (w : HostWord) :
    (∃ e, decodeHostWord w = .error e) ↔
      w.toNat / 256 = 6 ∨ w.toNat / 256 = 7 ∨
        (w.toNat % 256 ≠ 0 ∧ (w.toNat / 256 = 1 ∨ w.toNat / 256 = 3 ∨ w.toNat / 256 = 4 ∨ w.toNat / 256 = 5)) ∨
        (w.toNat / 256 = 2 ∧ w.toNat % 256 ≠ 0x00 ∧ w.toNat % 256 ≠ 0xFF) := by
  have hw : w.toNat < 2048 := w.isLt
  unfold decodeHostWord
  rw [hostWord_code]
  split
  case h_1 hc => exact iff_of_false nofun (by omega)
  case h_3 hc =>
    have hcolour := isColour_iff_toNat (w.setWidth 8)
    rw [hostWord_arg_toNat] at hcolour
    split
    · next h => exact iff_of_false nofun (by have := hcolour.mp h; omega)
    · next h => exact iff_of_true ⟨_, rfl⟩ (by have := mt hcolour.mpr h; omega)
  case h_7 h0 h1 h2 h3 h4 h5 =>
    simp only [imp_false] at h0 h1 h2 h3 h4 h5
    exact iff_of_true ⟨_, rfl⟩ (by omega)
  all_goals
    rename_i hc
    rw [hostNoOperand_error_iff]
    omega

/-! ### Refusals -/

/-- No host operation has a meaning while an operation runs (R99, 60_exceptions.md R270). -/
theorem exec_host_running {i : Instr} {s : State} (hi : i.format = .hostWord) (hs : s.seq ≠ .idle) :
    exec i s = .refused .notIdle := by
  have busy : ∀ k, s.requireIdle k = .refused .notIdle := fun k => if_neg hs
  cases i with
  | openSession m => exact busy _
  | init => exact busy _
  | paint c => exact busy _
  | clear => exact busy _
  | paintImage => exact busy _
  | sleep => exact busy _
  | _ => cases hi

theorem hostStep_refuses {s : State} {r : HostRequest} {rest : List HostRequest} {e : Reject} (hh : s.host = r :: rest)
    (hd : decodeHostWord r.word = .error e) : hostStep s = .refused (.reservedHostWord e) := by
  simp only [hostStep, hh, hd]

theorem exec_paint_reserved {c : Byte} {s : State} (hq : s.seq = .idle) (hp : s.ps = .configured)
    (hc : ¬isColour c = true) : exec (.paint c) s = .refused (.reservedColour c) := by
  simp only [exec, execPaint, State.requireIdle, State.requireConfigured, if_pos hq, if_pos hp, if_neg hc]

/-- Settles O4: the decoder's errors code by code, and the refusals of `hostStep` and of `exec`. -/
theorem reservedHostWordsRefused : Obligations.ReservedHostWordsRefused := by
  refine ⟨decodeHostWord_error_iff, fun s r rest e hq hh hd => ?_, fun c s hq hp h0 hF => ?_, fun i s op pos k hi hq => ?_⟩
  · rw [step_idle s hq, hostStep_refuses hh hd]
  · exact exec_paint_reserved hq hp fun hc => (isColour_cases hc).elim h0 hF
  · exact exec_host_running hi (by rw [hq]; nofun)

end Sys2Proof.Machine
end

section
/-! O5: the symbols of a panel command are one command frame group, and DC alone divides a stream into its groups. -/

namespace Sys2Proof.Machine

/-! ### One group -/

/-- The number of data symbols in the group of an opcode, the frame buffer holding `len` bytes (30_encoding.md R96, R100). -/
def dataCount (len : Nat) (op : Byte) : Nat :=
  match op.toNat with
  | 0x12 | 0x20 => 0
  | 0x11 | 0x4E | 0x3C | 0x18 | 0x22 | 0x10 => 1
  | 0x44 | 0x4F | 0x21 => 2
  | 0x01 => 3
  | 0x45 => 4
  | 0x24 => len
  | _ => 0

theorem groupSyms_length (op : Byte) (data : List Byte) : (groupSyms (op, data)).length = 1 + data.length := by
  simp [groupSyms, Nat.add_comm]

/-- What a panel command sends is one group, opened by its opcode. -/
theorem State.groupOf_eq_groupSyms {s : State} {i : Instr} {xs : List Sym} (h : s.groupOf i = some xs) :
    ∃ op data, xs = groupSyms (op, data) ∧ (encode i).head? = some op ∧ data.length = dataCount s.len.toNat op ∧
      op ∈ panelOpcodes := by
  cases i with
  | swreset => cases h; exact ⟨0x12, [], rfl, rfl, rfl, by decide⟩
  | drvout => cases h; exact ⟨0x01, [0xF9, 0x00, s.cfg.gateScan], rfl, rfl, rfl, by decide⟩
  | dentry => cases h; exact ⟨0x11, [s.cfg.dataEntryMode], rfl, rfl, rfl, by decide⟩
  | ramxwin xs xe => cases h; exact ⟨0x44, [_, _], rfl, rfl, rfl, by decide⟩
  | ramywin ys ye => cases h; exact ⟨0x45, [_, _, _, _], rfl, rfl, rfl, by decide⟩
  | ramxcnt => cases h; exact ⟨0x4E, [0x00], rfl, rfl, rfl, by decide⟩
  | ramycnt => cases h; exact ⟨0x4F, [0x00, 0x00], rfl, rfl, rfl, by decide⟩
  | border => cases h; exact ⟨0x3C, [s.cfg.borderWaveform], rfl, rfl, rfl, by decide⟩
  | updctl1 => cases h; exact ⟨0x21, [s.cfg.updateCtrlA, s.cfg.updateCtrlB], rfl, rfl, rfl, by decide⟩
  | tempsen => cases h; exact ⟨0x18, [s.cfg.tempSensor], rfl, rfl, rfl, by decide⟩
  | wrram => cases h; exact ⟨0x24, s.bufferBytes, rfl, rfl, s.bufferBytes_length, by decide⟩
  | updctl2 => cases h; exact ⟨0x22, [0xF7], rfl, rfl, rfl, by decide⟩
  | activate => cases h; exact ⟨0x20, [], rfl, rfl, rfl, by decide⟩
  | dsleep => cases h; exact ⟨0x10, [s.cfg.sleepMode], rfl, rfl, rfl, by decide⟩
  | _ => cases h

/-! ### A stream of groups -/

theorem groupStream_command (op : Byte) (xs : List Sym) :
    groupStream ((false, op) :: xs) = ([], (op, (groupStream xs).1) :: (groupStream xs).2) := rfl

theorem groupStream_data (data : List Byte) (xs : List Sym) :
    groupStream (data.map (fun b => (true, b)) ++ xs) = (data ++ (groupStream xs).1, (groupStream xs).2) := by
  induction data with
  | nil => rfl
  | cons b data ih => simp [groupStream, ih]

theorem groupStream_flatMap_groupSyms (gs : List (Byte × List Byte)) : groupStream (gs.flatMap groupSyms) = ([], gs) := by
  induction gs with
  | nil => rfl
  | cons g gs ih =>
    obtain ⟨op, data⟩ := g
    rw [List.flatMap_cons, groupSyms, List.cons_append, groupStream_command, groupStream_data, ih, List.append_nil]

/-- Settles O5: the group of a command has the length its opcode decides, and is sent whole. -/
theorem commandFrameGroups : Obligations.CommandFrameGroups := by
  refine ⟨fun i s xs hx ht => ?_, groupStream_flatMap_groupSyms⟩
  obtain ⟨op, data, hxs, hop, hlen, hmem⟩ := State.groupOf_eq_groupSyms hx
  obtain ⟨ix, -, he⟩ := exec_sent (.inl hx) ht
  have hcount : xs.length = 1 + dataCount s.len.toNat op := by rw [hxs, groupSyms_length, hlen]
  refine ⟨op, data, _, hxs, hop, he, by simp, ?_, ?_, ?_, ?_, ?_, ?_, hmem⟩
  all_goals
    rw [hcount]
  · rintro (rfl | rfl) <;> rfl
  · rintro (rfl | rfl | rfl | rfl | rfl | rfl) <;> rfl
  · rintro (rfl | rfl | rfl) <;> rfl
  · rintro rfl; rfl
  · rintro rfl; rfl
  · rintro rfl; rfl

end Sys2Proof.Machine
end

section
/-! O27: the symbols that a step puts on the bus are those of a panel command of the running operation. -/

namespace Sys2Proof.Machine

/-! ### The byte stream of a step -/

theorem byteStreamFrom_frames (dc : Bool) (xs : List Sym) : byteStreamFrom dc (frames xs) = xs := by
  induction xs generalizing dc with
  | nil => rfl
  | cons x xs ih => simp [frame, byteStreamFrom, ih]

/-- `t` comes after `s`, and every command symbol sent between them satisfies `p`. -/
def CommandsSent (p : Byte → Prop) (s t : State) : Prop :=
  ∃ ev, t.T = s.T ++ ev ∧ ∀ b, (false, b) ∈ byteStreamFrom s.pinDC ev → p b

section
variable {p q : Byte → Prop} {s t : State}

theorem CommandsSent.imp (h : CommandsSent p s t) (hpq : ∀ b, p b → q b) : CommandsSent q s t := by
  obtain ⟨ev, hT, hev⟩ := h
  exact ⟨ev, hT, fun b hb => hpq b (hev b hb)⟩

theorem CommandsSent.advance (h : CommandsSent p s t) : CommandsSent p s t.advance := by
  obtain ⟨ev, hT, hev⟩ := h
  exact ⟨ev, t.advance_T.trans hT, hev⟩

/-- Events among which there is no byte. -/
theorem commandsSent_of_silent {ev : List Event} (hT : t.T = s.T ++ ev) (hev : byteStreamFrom s.pinDC ev = []) :
    CommandsSent p s t :=
  ⟨ev, hT, fun b hb => by rw [hev] at hb; cases hb⟩

theorem commandsSent_of_same (hT : t.T = s.T) : CommandsSent p s t :=
  commandsSent_of_silent (ev := []) (by rw [hT, List.append_nil]) rfl

/-! ### A panel command -/

/-- A micro-operation sends its symbols from the first on, all of them or those up to the one that the transport fails. -/
theorem exec_trace {i : Instr} {xs : List Sym} (hx : s.Sends i xs) (h : exec i s = .next t) :
    ∃ n, t.T = s.T ++ frames (xs.take n) := by
  rcases s.transportOk_or_fails xs.length with hok | ⟨j, hj, hok, hf⟩
  · obtain ⟨ix, -, he⟩ := exec_sent hx hok
    cases h.symm.trans he
    exact ⟨xs.length, by simp⟩
  · obtain ⟨ix, -, he⟩ := exec_failed hx (List.getElem?_eq_getElem hj) hok hf
    cases h.symm.trans he
    refine ⟨j + 1, ?_⟩
    rw [List.take_add_one, List.getElem?_eq_getElem hj, Option.toList_some, frames_append]
    simp

/-- The one command symbol of a panel command is its opcode. -/
theorem exec_panelCommand_commandsSent {i : Instr} (hi : i.format = .panelOpcode) (h : exec i s = .next t) :
    CommandsSent (fun b => b ∈ panelOpcodes ∧ (encode i).head? = some b) s t := by
  obtain ⟨xs, hx⟩ := s.exists_sends (i := i) (by rw [hi]; nofun)
  obtain ⟨n, hT⟩ := exec_trace hx h
  have hgroup : s.groupOf i = some xs := by
    rcases hx with hx | ⟨b, rfl, -⟩ | ⟨b, rfl, -⟩
    · exact hx
    · cases hi
    · cases hi
  obtain ⟨op, data, rfl, hop, -, hmem⟩ := State.groupOf_eq_groupSyms hgroup
  refine ⟨_, hT, fun b hb => ?_⟩
  rw [byteStreamFrom_frames] at hb
  obtain rfl : b = op := by simpa [groupSyms] using List.mem_of_mem_take hb
  exact ⟨hmem, hop⟩

/-! ### The opcode 0x10 -/

theorem eq_dsleep_of_opcode {i : Instr} (hi : i.format = .panelOpcode) (h : (encode i).head? = some 0x10) : i = .dsleep := by
  cases i with
  | dsleep => rfl
  | _ => simp [Instr.format, encode] at hi h

theorem program_dsleep {op : Instr} {pos : Nat} (hop : spansSteps op = true) (h : (program op)[pos]? = some (.instr .dsleep)) :
    op = .sleep := by
  have hmem := List.mem_of_getElem? h
  have hcases := spansSteps_cases hop
  simp only [List.mem_cons, List.not_mem_nil, or_false] at hcases
  rcases hcases with rfl | rfl | rfl | rfl | rfl | rfl
  case inr.inr.inr.inr.inr => rfl
  all_goals exact absurd hmem (by decide)

/-! ### A step -/

/-- What a running operation may send as a command. -/
def Sendable (op : Instr) (b : Byte) : Prop := b ∈ panelOpcodes ∧ (b = 0x10 → op = .sleep)

theorem commandsSent_of_continueWith {op i : Instr} (hi : i.format = .panelOpcode) (hs : i = .dsleep → op = .sleep)
    (h : continueWith (exec i s) = .next t) : CommandsSent (Sendable op) s t := by
  obtain ⟨u, hu, rfl⟩ := continueWith_next h
  exact ((exec_panelCommand_commandsSent hi hu).imp fun b ⟨hmem, hop⟩ =>
    ⟨hmem, fun hb => hs (eq_dsleep_of_opcode hi (hb ▸ hop))⟩).advance

theorem State.poll_commandsSent : CommandsSent p s s.poll := by
  unfold State.poll
  split
  · exact (commandsSent_of_silent s.pollOnce_T rfl).advance
  · split
    · exact commandsSent_of_silent s.pollOnce_T rfl
    · exact commandsSent_of_silent (ev := [.smp s.env.busyAnswer, .dly Config.tPoll]) (by simp) rfl

theorem runMicro_commandsSent {op : Instr} {pos : Nat} {m : Micro} (hop : spansSteps op = true)
    (hm : (program op)[pos]? = some m) (h : runMicro m s = .next t) : CommandsSent (Sendable op) s t := by
  cases m with
  | resetPulse => cases h; exact (commandsSent_of_silent s.resetPulse_T rfl).advance
  | startWait => cases h; exact (commandsSent_of_same s.startWait_T).advance
  | poll => cases h; exact s.poll_commandsSent
  | enter q => cases h; exact (commandsSent_of_same rfl).advance
  | build c => cases h; exact (commandsSent_of_same rfl).advance
  | loadImage => cases h; exact (commandsSent_of_same rfl).advance
  | paintXWin => exact commandsSent_of_continueWith (i := .ramxwin 0 (s.w - 1)) rfl nofun h
  | paintYWin => exact commandsSent_of_continueWith (i := .ramywin 0 (s.h - 1)) rfl nofun h
  | instr i => exact commandsSent_of_continueWith ((program_instr hm).2 hop) (fun hi => program_dsleep hop (hi ▸ hm)) h

theorem exec_host_commandsSent {i : Instr} (hi : i.format = .hostWord) (h : exec i s = .next t) : CommandsSent p s t := by
  obtain ⟨-, hcases⟩ := exec_host_cases hi h
  rcases hcases with ⟨rfl, -⟩ | ⟨-, -, rfl⟩ | ⟨m, -, -, -, rfl⟩ | ⟨m, -, -, -, -, rfl⟩ | ⟨m, -, -, -, -, rfl⟩
  all_goals exact commandsSent_of_same rfl

end

/-- Settles O27: only a micro-step of a running operation sends, and the one micro-step with opcode 0x10 is SLEEP's. -/
theorem onlyTableOpcodesAreSent : Obligations.OnlyTableOpcodesAreSent := by
  intro s t hinv ht
  rcases step_cases ht with ⟨-, -, rfl⟩ | ⟨r, rest, i, -, -, hd, he⟩ | ⟨op, pos, k, m, hq, hm, he⟩
  · exact commandsSent_of_same rfl
  · exact exec_host_commandsSent (s := s.present r rest) (decodeHostWord_format hd) he
  · exact (runMicro_commandsSent (hinv.sequenced hq hm).spans hm he).imp fun b ⟨hmem, hsleep⟩ =>
      ⟨hmem, fun hb => ⟨pos, k, hsleep hb ▸ hq⟩⟩

end Sys2Proof.Machine
end

section
/-! O6, O7, O10: one call of the codec sends one symbol in a frame of its own, and the bits of a byte leave in their order. -/

namespace Sys2Proof.Machine

/-! ### The bits of a byte -/

/-- Whatever the order in which bits are sent, and whatever MOSI was before, they are sampled in that order. -/
theorem sampledBits_flatMap_txBit (m : Bool) (b : Byte) (is : List Nat) :
    sampledBits m (is.flatMap (txBit b)) = is.map b.getLsbD := by
  induction is generalizing m with
  | nil => rfl
  | cons i is ih => simp [txBit, sampledBits, ih]

theorem risingEdges_flatMap_txBit (b : Byte) (is : List Nat) :
    (is.flatMap (txBit b)).count (.sclk true) = is.length := by
  induction is with
  | nil => rfl
  | cons i is ih => simp [txBit, ih]

/-- Settles O10: `txBits` sends the bits in the order 7 down to 0, each with one rising and then one falling edge. -/
theorem bitsLeaveMostSignificantFirst : Obligations.BitsLeaveMostSignificantFirst := by
  refine ⟨fun m b => ?_, fun b => ⟨risingEdges_flatMap_txBit b _, rfl⟩, ?_⟩
  · exact sampledBits_flatMap_txBit m b _
  · rw [txBits, sampledBits_flatMap_txBit]
    decide

/-! ### The pin drives of a stream -/

theorem count_csLow_frames (xs : List Sym) : (frames xs).count (.drv .cs false) = xs.length := by
  induction xs with
  | nil => rfl
  | cons x xs ih => simp [frame, ih]

theorem count_dc_frames (l : Bool) (xs : List Sym) : (frames xs).count (.drv .dc l) = (xs.map Prod.fst).count l := by
  induction xs with
  | nil => rfl
  | cons x xs ih => simp [frame, List.count_cons, ih]

/-! ### One call -/

/-- A call of the codec whose byte the transport sends; `exec_codec_failed` is the other way it ends. -/
theorem exec_codec_sent (s : State) (b : Byte) (h : s.TransportOk 1) :
    exec (.cmd b) s = .next (s.afterSyms [(false, b)]) ∧ exec (.dat b) s = .next (s.afterSyms [(true, b)]) := by
  have hok := ((s.transportOk_succ 0 (true, b)).mp h).1
  simp only [exec, execCmd, execDat, s.sendByte_ok _ b hok]
  exact ⟨rfl, rfl⟩

/-- The ordinal of the failed byte is the number of bytes in the trace, its own event among them. -/
theorem State.afterFailedByte_errInfo_eq_txCount (s : State) (dc : Bool) (b : Byte) :
    (s.afterFailedByte dc b).errInfo = txCount (s.afterFailedByte dc b).T := by
  simp

/-- Settles O6: the state after one command symbol, sent or failed. -/
theorem cmdSendsCommandSymbol : Obligations.CmdSendsCommandSymbol := by
  refine fun op s => ⟨fun h => ?_, fun h => ?_⟩
  · rw [(exec_codec_sent s op h).1, s.afterSyms_singleton]
    exact ⟨_, _, _, rfl⟩
  · exact ⟨_, (exec_codec_failed s op h).1, rfl, rfl, rfl, rfl, rfl, rfl, rfl, s.afterFailedByte_errInfo_eq_txCount false op⟩

/-- Settles O7: the state after one data symbol, sent or failed, and the events of a stream of data symbols. -/
theorem datSendsDataSymbol : Obligations.DatSendsDataSymbol := by
  refine ⟨fun b s => ⟨fun h => ?_, fun h => ?_⟩, fun bs s h => ?_⟩
  · rw [(exec_codec_sent s b h).2, s.afterSyms_singleton]
    exact ⟨_, _, _, rfl⟩
  · exact ⟨_, (exec_codec_failed s b h).2, rfl, rfl, rfl, rfl, rfl, rfl, rfl, s.afterFailedByte_errInfo_eq_txCount true b⟩
  · refine ⟨_, _, s.sendSyms_ok _ (by simpa using h), s.afterSyms_T _, by simp, ?_, ?_⟩
    · rw [count_csLow_frames, List.length_map]
    · simp [count_dc_frames, Function.comp_def]

end Sys2Proof.Machine
end

section
/-! O11 to O15: what each panel command other than WRRAM sends, and where the operations send it. -/

namespace Sys2Proof.Machine

/-! ### What a panel command sends -/

/-- A panel command other than WRRAM sends its group and changes nothing else of the engine. -/
theorem exec_group_sentFrom {s : State} {i : Instr} {xs : List Sym} (hi : i ≠ .wrram) (hx : s.groupOf i = some xs)
    (h : s.TransportOk xs.length) : ∃ t, exec i s = .next t ∧ s.SentFrom xs t :=
  ⟨_, exec_group hi hx h, _, _, _, rfl⟩

theorem xByte_ofNat_mod (x : Coord) : xByte x = BitVec.ofNat 8 (x.toNat / 8 % 256) := by
  rw [← xByte_toNat, BitVec.ofNat_toNat, BitVec.setWidth_eq]

theorem yLow_ofNat_mod (y : Coord) : yLow y = BitVec.ofNat 8 (y.toNat % 256) := by
  rw [← yLow_toNat, BitVec.ofNat_toNat, BitVec.setWidth_eq]

/-! ### Where the operations send it -/

/-- A claim about the places of a micro-step is one about the finitely many positions of the six expansions. -/
theorem program_places {m : Micro} {p : Instr → Nat → Prop} {op : Instr} {pos : Nat} (hop : spansSteps op = true)
    (hm : (program op)[pos]? = some m)
    (h : ∀ op ∈ [Instr.init, .paint 0x00, .paint 0xFF, .clear, .paintImage, .sleep],
      ∀ pos < (program op).length, (program op)[pos]? = some m → p op pos) : p op pos :=
  h op (spansSteps_cases hop) pos (List.getElem?_eq_some_iff.mp hm).1 hm

section
variable {op : Instr} {pos : Nat}

theorem program_swreset (hop : spansSteps op = true) (h : (program op)[pos]? = some (.instr .swreset)) :
    op = .init ∧ pos = 4 := by
  apply program_places hop h
  decide

theorem program_tempsen (hop : spansSteps op = true) (h : (program op)[pos]? = some (.instr .tempsen)) :
    op = .init ∧ pos = 16 := by
  apply program_places hop h
  decide

/-- UPDCTL2 and what stands around it: TURN_ON_DISPLAY, which only the paints contain (R176). -/
theorem program_updctl2 (hop : spansSteps op = true) (h : (program op)[pos]? = some (.instr .updctl2)) :
    op ≠ .init ∧ op ≠ .sleep ∧ (program op)[pos - 1]? = some (.enter .refreshing) ∧
      (program op)[pos + 1]? = some (.instr .activate) := by
  apply program_places hop h
  decide

theorem program_activate (hop : spansSteps op = true) (h : (program op)[pos]? = some (.instr .activate)) :
    0 < pos ∧ (program op)[pos - 1]? = some (.instr .updctl2) ∧ (program op)[pos + 1]? = some .startWait := by
  apply program_places hop h
  decide

/-- SWRESET is the first command of INIT: its expansion up to there is a reset pulse, a wait and a change of PS. -/
theorem program_init_before_swreset {j : Nat} (hj : j < 4) (i : Instr) : (program .init)[j]? ≠ some (.instr i) := by
  intro h
  rw [← List.getElem?_take_of_lt hj] at h
  have hm : Micro.instr i ∈ [Micro.resetPulse, .startWait, .poll, .enter .configured] := List.mem_of_getElem? h
  simp at hm

/-- TEMPSEN is the last command of INIT: a wait and a change of PS are left of its expansion. -/
theorem program_init_after_tempsen {j : Nat} (hj : 16 < j) (i : Instr) : (program .init)[j]? ≠ some (.instr i) := by
  intro h
  obtain ⟨n, rfl⟩ := Nat.exists_eq_add_of_lt hj
  rw [Nat.add_right_comm, ← List.getElem?_drop] at h
  have hm : Micro.instr i ∈ [Micro.startWait, .poll, .enter .configured] := List.mem_of_getElem? h
  simp at hm

/-! ### The windows -/

/-- Does a micro-step with a literal window name that of the whole panel, 122 columns by 250 rows (R173, R174). -/
def Micro.wholeWindow : Micro → Bool
  | .instr (.ramxwin xs xe) => xs == 0 && xe == 121
  | .instr (.ramywin ys ye) => ys == 0 && ye == 249
  | _ => true

theorem program_wholeWindow {m : Micro} (hop : spansSteps op = true) (h : (program op)[pos]? = some m) :
    m.wholeWindow = true := by
  have hall : ∀ op ∈ [Instr.init, .paint 0x00, .paint 0xFF, .clear, .paintImage, .sleep],
      (program op).all Micro.wholeWindow = true := by decide
  exact List.all_eq_true.mp (hall op (spansSteps_cases hop)) m (List.mem_of_getElem? h)

/-- A micro-step that neither INIT nor SLEEP contains is one of a paint, and comes after the build unless it is the build. -/
theorem program_past_build {m : Micro} (hop : spansSteps op = true) (h : (program op)[pos]? = some m)
    (hinit : m ∉ program .init) (hsleep : m ∉ program .sleep) (hb : ∀ c, m ≠ .build c) :
    0 < pos ∧ ∃ c, (program op).head? = some (.build c) := by
  have hmem := List.mem_of_getElem? h
  have hpaint : ∃ c, (program op).head? = some (.build c) := by
    cases op with
    | init => exact absurd hmem hinit
    | sleep => exact absurd hmem hsleep
    | paint c => exact ⟨c, rfl⟩
    | clear => exact ⟨Config.white, rfl⟩
    | paintImage => exact ⟨Config.white, rfl⟩
    | _ => cases hop
  refine ⟨Nat.pos_of_ne_zero fun h0 => ?_, hpaint⟩
  obtain ⟨c, hc⟩ := hpaint
  rw [h0, ← List.head?_eq_getElem?, hc] at h
  exact hb c (Option.some.inj h).symm

/-- At such a micro-step the buffer is that of the whole panel. -/
theorem State.BufferInv.whole {s : State} {m : Micro} (h : s.BufferInv) (hm : s.micro? = some m)
    (hrun : ∃ op pos k, s.seq = .running op pos k ∧ spansSteps op = true)
    (hinit : m ∉ program .init) (hsleep : m ∉ program .sleep) (hb : ∀ c, m ≠ .build c) : s.WholeBuffer := by
  obtain ⟨op, pos, k, hq, hop⟩ := hrun
  have hget : (program op)[pos]? = some m := by simpa [State.micro?, hq] using hm
  obtain ⟨hpos, c, hc⟩ := program_past_build hop hget hinit hsleep hb
  exact ((State.bufferInv_iff hq).mp h c hc).1 hpos

end

/-! ### The statements -/

/-- Settles O11: each of the two groups is one symbol; SWRESET stands at position 4 of INIT, and ACTIVATE in TURN_ON_DISPLAY. -/
theorem commandsWithoutData : Obligations.CommandsWithoutData := by
  refine ⟨rfl, rfl, fun s h => ⟨exec_group_sentFrom nofun rfl h, exec_group_sentFrom nofun rfl h⟩, fun op pos hop hm => ?_,
    fun op pos => program_activate⟩
  obtain ⟨rfl, rfl⟩ := program_swreset hop hm
  exact ⟨rfl, rfl, fun j i hj => program_init_before_swreset hj i⟩

/-- Settles O12: each of the six groups is two symbols; TEMPSEN stands at position 16 of INIT, UPDCTL2 in TURN_ON_DISPLAY, and
DSLEEP at the start of SLEEP. -/
theorem commandsWithOneByte : Obligations.CommandsWithOneByte := by
  refine ⟨rfl, rfl, rfl, rfl, rfl, rfl, fun s h => ?_, fun op pos hop hm => ?_, fun op pos => program_updctl2,
    fun op pos hop hm => ?_⟩
  · have sent {i : Instr} {x y : Sym} (hi : i ≠ .wrram) (hx : s.groupOf i = some [x, y]) :
        ∃ t, exec i s = .next t ∧ s.SentFrom [x, y] t := exec_group_sentFrom hi hx h
    exact ⟨sent nofun rfl, sent nofun rfl, sent nofun rfl, sent nofun rfl, sent nofun rfl, sent nofun rfl⟩
  · obtain ⟨rfl, rfl⟩ := program_tempsen hop hm
    exact ⟨rfl, fun j i hj => program_init_after_tempsen hj i⟩
  · obtain rfl := program_dsleep hop hm
    rcases pos with _ | _ | pos
    · exact ⟨rfl, rfl⟩
    · cases hm
    · cases hm

/-- Settles O13: the groups of `groupOf`, sent whole. -/
theorem commandsWithConstantData : Obligations.CommandsWithConstantData :=
  ⟨rfl, rfl, rfl, fun _ h => exec_group_sentFrom nofun rfl h,
    fun _ h => ⟨exec_group_sentFrom nofun rfl h, exec_group_sentFrom nofun rfl h⟩⟩

/-- Settles O14: the two column bytes are `xByte` of the columns, a literal window is that of the whole panel, and while a paint
shows its buffer W is 122. -/
theorem ramXWindow : Obligations.RamXWindow := by
  refine ⟨fun xs xe s h => ?_, fun x hlo hhi => ?_, fun op pos xs xe hop hm => ?_, fun s hinv hm hrun => ?_⟩
  · rw [← xByte_ofNat_mod, ← xByte_ofNat_mod]
    exact ⟨rfl, exec_group_sentFrom nofun (by simp only [State.groupOf, xByte_ofNat]) h⟩
  · apply BitVec.eq_of_toNat_eq
    rw [xByte_toNat]
    change x.toNat / 8 % 256 = 15
    omega
  · simpa [Micro.wholeWindow] using program_wholeWindow hop hm
  · have hwhole := hinv.whole hm hrun (by decide) (by decide) nofun
    rw [runMicro, hwhole.w]
    rfl

/-- Settles O15: the four row bytes are `yLow` and `yHigh` of the rows, a literal window is that of the whole panel, and while a
paint shows its buffer H is 250. -/
theorem ramYWindow : Obligations.RamYWindow := by
  refine ⟨fun ys ye s h => ?_, fun y hy h0 => ?_, fun op pos ys ye hop hm => ?_, fun s hinv hm hrun => ?_⟩
  · rw [← yLow_ofNat_mod, ← yHigh_ofNat, ← yLow_ofNat_mod, ← yHigh_ofNat]
    exact ⟨rfl, exec_group_sentFrom nofun (by simp only [State.groupOf, yLow_ofNat, yHigh_ofNat]) h⟩
  · have hhigh := yHigh_toNat y
    rw [h0] at hhigh
    change 0 = y.toNat / 256 at hhigh
    omega
  · simpa [Micro.wholeWindow] using program_wholeWindow hop hm
  · have hwhole := hinv.whole hm hrun (by decide) (by decide) nofun
    rw [runMicro, hwhole.h]
    rfl

end Sys2Proof.Machine
end

section
/-! O21, O22, O28: the reset pulse, the busy-wait from its entry, and the places of the waits in the expansions. -/

namespace Sys2Proof.Machine

/-- Settles O21: the first step of INIT. -/
theorem resetPulse : Obligations.ResetPulse :=
  fun s _ hq => ⟨s.panel.latchReset, step_resetPulse hq⟩

/-! ### WAIT_IDLE while BUSY reads high (42_panel_state_machine.md R172) -/

section
variable {s : State} {op : Instr} {pos k : Nat}

/-- `n` high samples below the bound: `n` turns of the loop, which stays where it is. -/
theorem runFor_poll_high (n : Nat) (hq : s.seq = .running op pos k) (hm : (program op)[pos]? = some .poll)
    (ha : s.env.busyAnswers n = List.replicate n true) (hb : ∀ b, s.cfg.busyTimeoutPolls = some b → s.polls + n < b) :
    ∃ panel, runFor n s = .next
      { s with
        polls := s.polls + n
        T := s.T ++ (List.replicate n [Event.smp true, Event.dly 10]).flatten
        seq := .running op pos (k + 2 * n)
        panel := panel
        env := s.env.afterSamples n } := by
  induction n generalizing s k with
  | zero => exact ⟨s.panel, by simp [Env.afterSamples, ← hq]⟩
  | succ n ih =>
    rw [Env.busyAnswers, List.replicate_succ, List.cons.injEq] at ha
    obtain ⟨hhigh, ha⟩ := ha
    have hturn := step_poll_high hq hm hhigh (s.pollOnce_not_timedOut fun b hn => by have := hb b hn; omega)
    obtain ⟨panel, hrun⟩ := ih (s :=
      { s with
        polls := s.polls + 1
        T := s.T ++ [.smp true, .dly 10]
        seq := .running op pos (k + 2)
        panel := s.panel.sampled true
        env := s.env.afterBusy }) rfl ha fun b hn => by have := hb b hn; simp only; omega
    refine ⟨panel, ?_⟩
    rw [runFor_step n hturn, hrun]
    simp [List.replicate_succ, Env.afterSamples]
    omega

/-- The entry of the wait and `n` high samples below the bound. -/
theorem runFor_waitIdle_high (n : Nat) (hq : s.seq = .running op pos k) (hw : (program op)[pos]? = some .startWait)
    (hp : (program op)[pos + 1]? = some .poll) (ha : s.env.busyAnswers n = List.replicate n true)
    (hb : ∀ b, s.cfg.busyTimeoutPolls = some b → n < b) :
    ∃ panel, runFor (n + 1) s = .next
      { s with
        ps := .awaitingIdle
        polls := n
        T := s.T ++ (List.replicate n [Event.smp true, Event.dly 10]).flatten
        seq := .running op (pos + 1) (k + 2 * n)
        panel := panel
        env := s.env.afterSamples n } := by
  have hpos : pos + 1 < (program op).length := (List.getElem?_eq_some_iff.mp hp).1
  obtain ⟨panel, hrun⟩ := runFor_poll_high (s := { s with ps := .awaitingIdle, polls := 0, seq := .running op (pos + 1) k }) n
    rfl hp ha fun b hn => by simpa using hb b hn
  exact ⟨panel, by rw [runFor_step n (step_startWait hq hw hpos), hrun, Nat.zero_add]⟩

/-- The wait at its bound: the last sample is counted and no delay follows it (60_exceptions.md R263). -/
theorem runFor_waitIdle_timedOut (n : Nat) (hq : s.seq = .running op pos k) (hw : (program op)[pos]? = some .startWait)
    (hp : (program op)[pos + 1]? = some .poll) (ha : s.env.busyAnswers (n + 1) = List.replicate (n + 1) true)
    (hb : s.cfg.busyTimeoutPolls = some (n + 1)) :
    ∃ panel, runFor (n + 2) s = .next
      { s with
        ps := .faulted
        err := .deviceUnresponsive
        errInfo := n + 1
        polls := n + 1
        T := s.T ++ (List.replicate n [Event.smp true, Event.dly 10]).flatten ++ [.smp true]
        seq := .idle
        fb := []
        panel := panel
        env := s.env.afterSamples (n + 1) } := by
  rw [Env.busyAnswers_add, List.replicate_add] at ha
  obtain ⟨hbefore, hlast⟩ := List.append_inj ha (by simp)
  have hhigh : (s.env.afterSamples n).busyAnswer = true := by simpa [Env.busyAnswers] using hlast
  obtain ⟨panel, hrun⟩ := runFor_waitIdle_high n hq hw hp hbefore fun b hn => by rw [hb] at hn; cases hn; omega
  refine ⟨(panel.sampled true).lose, ?_⟩
  rw [runFor_add (n + 1) 1 hrun, runFor_one, step_poll_timedOut rfl hp hhigh (by simp [State.timedOut, hb]),
    Env.afterSamples_add n 1]
  simp [State.raise, State.pollOnce, State.sampleBusy, State.emit, hhigh, Env.afterSamples]

end

/-! ### The places of the waits -/

/-- After every wait of a host operation PS becomes Configured. -/
theorem program_startWait {op : Instr} {pos : Nat} (hop : spansSteps op = true) (h : (program op)[pos]? = some .startWait) :
    (program op)[pos + 1]? = some .poll ∧ (program op)[pos + 2]? = some (.enter .configured) := by
  apply program_places hop h
  decide

/-- Settles O22: a low sample ends the loop, a high one at the bound raises the error, and each other high one takes a turn. -/
theorem waitIdle_events_bound_hang : Obligations.WaitIdle := by
  refine ⟨fun op pos => program_startWait, fun s op pos k hq hw hp hl => ⟨fun m ha hb => ?_, fun n hb ha => ?_, fun n hb ha => ?_⟩⟩
  · exact ⟨_, runFor_waitIdle m hq hw hp hl ha hb⟩
  · obtain ⟨panel, hrun⟩ := runFor_waitIdle_timedOut n hq hw hp ha hb
    exact ⟨panel, [], hrun⟩
  · obtain ⟨panel, hrun⟩ := runFor_waitIdle_high n hq hw hp ha fun b hn => by rw [hb] at hn; cases hn
    exact ⟨_, hrun, rfl, rfl, rfl, rfl⟩

/-- A claim about what stands directly before each place of a micro-step is one about the finitely many positions of the six
expansions. -/
theorem program_follows_iff {m : Micro} {P : Option Micro → Prop} (hP : ¬ P none) {op : Instr} (hop : spansSteps op = true)
    (h : ∀ op ∈ [Instr.init, .paint 0x00, .paint 0xFF, .clear, .paintImage, .sleep], ∀ pos < (program op).length + 1,
      ((program op)[pos]? = some m ↔ 0 < pos ∧ P (program op)[pos - 1]?)) (pos : Nat) :
    (program op)[pos]? = some m ↔ 0 < pos ∧ P (program op)[pos - 1]? := by
  by_cases hpos : pos < (program op).length + 1
  · exact h op (spansSteps_cases hop) pos hpos
  · rw [List.getElem?_eq_none (by omega), List.getElem?_eq_none (by omega)]
    simp [hP]

/-- Settles O28: by the six expansions. -/
theorem waitsArePlaced : Obligations.WaitsArePlaced := fun _ hop =>
  ⟨program_follows_iff (P := fun b => b = some .resetPulse ∨ b = some (.instr .swreset) ∨ b = some (.instr .tempsen) ∨
      b = some (.instr .activate)) (by simp) hop (by decide),
    program_follows_iff (P := fun b => b = some .startWait) (by simp) hop (by decide)⟩

end Sys2Proof.Machine
end

section
/-! O23: the changes of PS, from what each micro-step does to it and from the order of the expansions. -/

namespace Sys2Proof.Machine

/-! ### What a step does to PS -/

section
variable {s t : State}

/-- A micro-step leaves PS, is one of the three that write it, or ends the operation in an error. -/
theorem MicroStep.ps {m : Micro} (h : MicroStep s m t) (hs : s.seq ≠ .idle) :
    t.ps = s.ps ∨ (m = .resetPulse ∧ t.ps = .resetting) ∨ (m = .startWait ∧ t.ps = .awaitingIdle) ∨ m = .enter t.ps ∨
      EndedInError s t := by
  cases h with
  | resetPulse => exact .inr (.inl ⟨rfl, by simp⟩)
  | startWait => exact .inr (.inr (.inl ⟨rfl, by simp⟩))
  | enter p => exact .inr (.inr (.inr (.inl (by simp))))
  | pollTimedOut hb ht => exact .inr (.inr (.inr (.inr (endedInError_of_timedOut hs hb ht))))
  | failed ys ix x => exact .inr (.inr (.inr (.inr (endedInError_of_failedByte hs ys ix x))))
  | _ => exact .inl (by simp)

/-- The host's word leaves PS. -/
theorem exec_host_ps {i : Instr} (hi : i.format = .hostWord) (h : exec i s = .next t) : t.ps = s.ps := by
  obtain ⟨-, hcases⟩ := exec_host_cases hi h
  rcases hcases with ⟨rfl, -⟩ | ⟨-, -, rfl⟩ | ⟨m, -, -, -, rfl⟩ | ⟨m, -, -, -, -, rfl⟩ | ⟨m, -, -, -, -, rfl⟩
  all_goals rfl

end

/-! ### Where the expansions change PS -/

section
variable {s : State} {op : Instr} {pos k : Nat}

/-- Outside INIT a wait follows the refresh trigger. -/
theorem program_startWait_ps (hop : spansSteps op = true) (h : (program op)[pos]? = some .startWait) :
    op = .init ∨ psAfter .configured ((program op).take pos) = .refreshing := by
  apply program_places hop h
  decide

theorem program_enter {p : PanelState} (hop : spansSteps op = true) (h : (program op)[pos]? = some (.enter p)) :
    p = .configured ∨ p = .refreshing ∨ p = .sleepRequested := by
  cases p
  all_goals
    apply program_places hop h
    decide

/-- What follows a change to Configured, a command or the end of the operation, is out of order at a busy panel. -/
theorem program_enter_configured (hop : spansSteps op = true) (h : (program op)[pos]? = some (.enter .configured)) :
    inOrder true .configured ((program op).drop (pos + 1)) = false := by
  apply program_places hop h
  decide

/-- The values of PS from which a wait may begin (42_panel_state_machine.md R170), and the one it writes. -/
theorem PanelState.legal_awaitingIdle {p : PanelState} (h : p.legal .awaitingIdle = true) :
    p = .awaitingIdle ∨ p = .resetting ∨ p = .configured ∨ p = .refreshing := by
  cases p <;> simp [legal] at h ⊢

/-- A wait that changes PS begins after the reset pulse, in INIT after its software reset or its last command, or after the refresh
trigger. -/
theorem State.SequencingInv.startWait_ps (h : s.SequencingInv) (hq : s.seq = .running op pos k)
    (hm : (program op)[pos]? = some .startWait) (hne : s.ps ≠ .awaitingIdle) :
    s.ps = .resetting ∨ (s.ps = .configured ∧ op = .init) ∨ s.ps = .refreshing := by
  have hlegal : s.ps.legal .awaitingIdle = true := by
    have ho := (h.sequenced hq hm).inOrder
    rw [inOrder, Bool.and_eq_true] at ho
    exact ho.1
  obtain ⟨-, -, hrun⟩ := h
  rw [hq] at hrun
  obtain ⟨hsp, -, -, hps, -⟩ := hrun
  rcases program_startWait_ps hsp hm with hinit | hrefresh
  · rcases PanelState.legal_awaitingIdle hlegal with hp | hp | hp | hp
    · exact absurd hp hne
    · exact .inl hp
    · exact .inr (.inl ⟨hp, hinit⟩)
    · exact .inr (.inr hp)
  · rcases hps with ⟨rfl, rfl⟩ | hps
    · cases hm
    · exact .inr (.inr (hps.trans hrefresh))

/-- A change of PS to another value, as the expansions make it. -/
theorem State.SequencingInv.enter_ps {p : PanelState} (h : s.SequencingInv) (hq : s.seq = .running op pos k)
    (hm : (program op)[pos]? = some (.enter p)) (hne : s.ps ≠ p) :
    (s.ps = .awaitingIdle ∧ p = .configured ∧ s.panel.busy = false) ∨ (s.ps = .configured ∧ p = .refreshing) ∨
      (s.ps = .configured ∧ p = .sleepRequested) := by
  have hseq := h.sequenced hq hm
  obtain ⟨hlegal, hrest⟩ : s.ps.legal p = true ∧ inOrder s.panel.busy p ((program op).drop (pos + 1)) = true := by
    have ho := hseq.inOrder
    rwa [inOrder, Bool.and_eq_true] at ho
  rcases program_enter hseq.spans hm with rfl | rfl | rfl
  · refine .inl ⟨by simpa [PanelState.legal, hne] using hlegal, rfl, ?_⟩
    cases hb : s.panel.busy with
    | false => rfl
    | true =>
      rw [hb, program_enter_configured hseq.spans hm] at hrest
      cases hrest
  · exact .inr (.inl ⟨by simpa [PanelState.legal, hne] using hlegal, rfl⟩)
  · exact .inr (.inr ⟨by simpa [PanelState.legal, hne] using hlegal, rfl⟩)

end

/-- Settles O23: by the micro-steps that write PS and the errors that end an operation. -/
theorem panelStateTransitions : Obligations.PanelStateTransitions := by
  intro s t h ht hne
  rcases step_cases ht with ⟨-, -, rfl⟩ | ⟨r, rest, i, -, -, hd, he⟩ | ⟨op, pos, k, m, hq, hm, he⟩
  · exact absurd rfl hne
  · exact absurd (exec_host_ps (decodeHostWord_format hd) he).symm hne
  have hmicro : s.micro? = some m := by simpa [State.micro?, hq] using hm
  rcases (microStep_of_runMicro hm he).ps (by simp [hq]) with hsame | ⟨rfl, hps⟩ | ⟨rfl, hps⟩ | rfl | herr
  · exact absurd hsame.symm hne
  · obtain ⟨rfl, rfl⟩ := program_resetPulse hm
    exact .inl ⟨hps, k, hq⟩
  · rcases h.startWait_ps hq hm (by rwa [hps] at hne) with hfrom | ⟨hfrom, rfl⟩ | hfrom
    · exact .inr (.inl ⟨hfrom, hps, hmicro⟩)
    · exact .inr (.inr (.inr (.inl ⟨hfrom, hps, hmicro, pos, k, hq⟩)))
    · exact .inr (.inr (.inr (.inr (.inr (.inl ⟨hfrom, hps, hmicro⟩)))))
  · rcases h.enter_ps hq hm hne with ⟨hfrom, hto, hidle⟩ | ⟨hfrom, hto⟩ | ⟨hfrom, hto⟩
    · exact .inr (.inr (.inl ⟨hfrom, hto, hto ▸ hmicro, hidle⟩))
    · exact .inr (.inr (.inr (.inr (.inl ⟨hfrom, hto, hto ▸ hmicro⟩))))
    · exact .inr (.inr (.inr (.inr (.inr (.inr (.inl ⟨hfrom, hto, hto ▸ hmicro⟩))))))
  · refine .inr (.inr (.inr (.inr (.inr (.inr (.inr ⟨herr.ps, by simp [hq], herr.seq, ?_⟩))))))
    rcases herr.cause with ⟨hcause, -⟩ | ⟨hcause, -⟩
    · exact .inr hcause
    · exact .inl hcause

end Sys2Proof.Machine
end

section
/-! O40, O42: INIT, PAINT and CLEAR from their acceptance to their end. -/

namespace Sys2Proof.Machine

theorem Panel.afterInit_glass (cfg : Params) (p : Panel) : (p.afterInit cfg).glass = p.glass := by
  rw [Panel.afterInit_eq]

/-- Settles O40: acceptance, then the run of INIT from its first micro-step. -/
theorem initCompletes : Obligations.InitCompletes := by
  intro s m₁ m₂ m₃ hq hs ht ha hb
  obtain ⟨n, hrun⟩ := runFor_init (s.accept .init) 0 m₁ m₂ m₃ rfl ((State.transportOk_congr rfl rfl).mpr ht) ha hb
  exact ⟨s.accept .init, n, s.panel.afterInit s.cfg, exec_init_accepts hq hs, s.panel.afterInit_glass s.cfg, hrun⟩

/-- Settles O42: acceptance, then the run of the paint from its first micro-step. -/
theorem paintAndClearComplete : Obligations.PaintAndClearComplete := by
  intro s i c m hi hq hps ht ha hb
  obtain ⟨haccept, hprog⟩ : exec i s = .next (s.accept i) ∧ program i = paintProgram c := by
    rcases hi with ⟨rfl, rfl | rfl⟩ | ⟨rfl, rfl⟩
    · exact ⟨exec_paint_accepts hq hps rfl, rfl⟩
    · exact ⟨exec_paint_accepts hq hps rfl, rfl⟩
    · exact ⟨exec_clear_accepts hq hps, rfl⟩
  obtain ⟨n, hrun⟩ := runFor_paint (s := s.accept i) hps ((State.transportOk_congr rfl rfl).mpr ht) ha hb hprog rfl
  exact ⟨s.accept i, n, _, haccept, hrun⟩

end Sys2Proof.Machine
end

section
/-! O16, O29, O30, O31, O43: the frame buffer from its building to its streaming, and the paint of an image. -/

namespace Sys2Proof.Machine

/-! ### Building (43_frame_buffer.md R200 to R206) -/

/-- Settles O29: ROW_BYTES is the ceiling, which is the value of each of the two cases. -/
theorem rowBytes_cases_ceiling_boundaries : Obligations.RowBytes := by
  refine ⟨fun w => ?_, fun w => ⟨rowBytes_toNat w, ?_⟩, by decide⟩
  · rw [rowBytes_toNat, ← rowBytesNat_eq, rowBytesNat]
  · have hw := w.isLt
    rw [rowBytes_toNat]
    omega

/-- The length of a buffer in bytes (R203). -/
theorem bufferLen_rowBytes_toNat (w h : Coord) : (bufferLen (rowBytes w) h).toNat = (w.toNat + 7) / 8 * h.toNat := by
  rw [bufferLen_toNat, rowBytes_toNat]

theorem State.buildBuffer_fb_read? (s : State) (w h : Coord) (rot : Rotation) (c : Byte) (i : Nat) :
    (s.buildBuffer w h rot c).fb.read? i = if i < (w.toNat + 7) / 8 * h.toNat then some c else none := by
  rw [State.buildBuffer_fb, Memory.read?_ofBytes_zero, List.getElem?_replicate, bufferLen_rowBytes_toNat]

/-- A build is never the whole of an operation: the bytes are still to be sent. -/
theorem program_build_more {op : Instr} {c : Byte} (h : (program op)[0]? = some (.build c)) : 1 < (program op).length := by
  cases op with
  | paint | clear | paintImage => exact Nat.succ_lt_succ (Nat.succ_pos _)
  | _ => cases h

/-- The micro-step of a build, whatever its fill. -/
theorem step_buildBuffer {s : State} {op : Instr} {k : Nat} {c : Byte} (hq : s.seq = .running op 0 k)
    (hm : (program op)[0]? = some (.build c)) :
    step s = .next { s.buildBuffer Config.panelW Config.panelH s.cfg.rot c with seq := .running op 1 k } :=
  step_more (n := 0) hq hm rfl (Seq.after_zero _).symm (program_build_more hm)

/-- Settles O30: each register has its law, the buffer is LEN copies of the fill, and the whole panel's build is a micro-step. -/
theorem buildBuffer : Obligations.BuildBuffer := by
  refine ⟨fun w h rot c s => ⟨rfl, rfl, rfl, rfl, rowBytes_toNat w, bufferLen_rowBytes_toNat w h, ?_, ?_,
    s.buildBuffer_fb_read? w h rot c, rfl⟩, fun _ _ _ _ => step_buildBuffer⟩
  · rintro (rfl | rfl) <;> exact ⟨rfl, rfl⟩
  · rintro (rfl | rfl) <;> exact ⟨rfl, rfl⟩

/-! ### Loading (R209) -/

/-- Settles O31: the load writes the port's bytes from index 0. -/
theorem imageTakesThePlaceOfTheFill : Obligations.ImageTakesThePlaceOfTheFill := fun s _ hq hp hl =>
  ⟨_, step_loadImage hq hp hl, fun i => Memory.read?_ofBytes_zero i s.port⟩

/-! ### Streaming (R207) -/

/-- The data symbols of WRRAM, by index. -/
theorem State.bufferBytes_syms (s : State) :
    (s.bufferBytes.map fun b => (true, b)) = (List.range s.len.toNat).map fun i => (true, s.memRead i) := by
  rw [State.bufferBytes, List.map_map]
  rfl

/-- STREAM_BUFFER, byte `j` failed: its frame is the last of the stream. -/
theorem State.streamBuffer_failed (s : State) {j : Nat} (hj : j < s.len.toNat) (hok : s.TransportOk j)
    (hf : txCount s.T + 1 + j ∈ s.env.txFail) :
    ∃ ix, s.streamBuffer = .raised (((s.afterSyms ((List.range j).map fun i => (true, s.memRead i))).setIdx
      ix).afterFailedByte true (s.memRead j)) := by
  obtain ⟨ix, he⟩ := State.stream_failed (s.setIdx 0) s.len.toNat j hj ((State.transportOk_congr rfl rfl).mpr hok) hf
    (by simpa using s.len.isLt)
  exact ⟨ix, by simpa [State.streamBuffer, List.range_eq_range'] using he⟩

/-- The last clause of O16 is not vacuous: a stream of four bytes whose third the transport fails. -/
theorem exists_stream_with_failing_byte : ∃ (s : State) (j : Nat),
    0 < j ∧ j < s.len.toNat ∧ s.TransportOk j ∧ txCount s.T + 1 + j ∈ s.env.txFail := by
  refine ⟨{ State.reset with len := 4, env := { Env.reset with txFail := [3] } }, 2, ?_⟩
  unfold State.TransportOk
  decide

/-- Settles O16: the stream with every byte sent, alone and behind the opcode, and the stream cut at a failed byte. -/
theorem writeRamStreamsTheBuffer : Obligations.WriteRamStreamsTheBuffer := by
  refine ⟨rfl, fun s h => ?_, fun s h => ?_, fun s j hj hok hf => ?_⟩
  · rw [Nat.add_comm] at h
    rw [← s.bufferBytes_syms]
    exact ⟨_, exec_wrram h, _, _, _, (State.afterSyms_setIdx ..).symm⟩
  · refine ⟨_, s.streamBuffer_ok h, ?_, rfl, ?_⟩
    · rw [State.setIdx_T, State.afterSyms_T, s.bufferBytes_syms]
    · simp [s.bufferBytes_length]
  · obtain ⟨ix, he⟩ := s.streamBuffer_failed hj hok hf
    refine ⟨_, he, rfl, ?_⟩
    simp [List.range_succ, frames_append]

/-! ### The paint of an image (44_orchestrator.md R235) -/

/-- Settles O43: acceptance, then the run of PAINT_IMAGE from its first micro-step. -/
theorem paintImageCompletes : Obligations.PaintImageCompletes := by
  intro s m hq hps hp ht ha hb
  obtain ⟨n, hrun⟩ := runFor_paintImage (s := s.accept .paintImage) hps ((State.transportOk_congr rfl rfl).mpr ht) ha hb rfl hp
  exact ⟨_, n, _, exec_paintImage_accepts hq hps hp, hrun⟩

end Sys2Proof.Machine
end

section
/-! O35, O39, O48: the acceptance of a host operation, and the ways out of an error. -/

namespace Sys2Proof.Machine

/-! ### OPEN -/

/-- OPEN is accepted when idle with no session open, whatever the identifier (44_orchestrator.md R231). -/
theorem exec_open_accepts (m : Byte) {s : State} (hq : s.seq = .idle) (hc : s.session = .closed) :
    exec (.openSession m) s = .next ((s.accept (.openSession m)).openBody m) := by
  simp only [exec, execOpen, State.requireIdle, if_pos hq, if_pos hc]

theorem exec_open_twice (m : Byte) {s : State} (hq : s.seq = .idle) (ho : s.session = .opened) :
    exec (.openSession m) s = .refused .sessionAlreadyOpen := by
  simp [exec, execOpen, State.requireIdle, hq, ho]

/-- Settles O35: the three ways the body of OPEN ends, and its two preconditions. -/
theorem openOutcomes : Obligations.OpenOutcomes := by
  refine fun m s => ⟨fun hq hc => ?_, exec_open_twice m, exec_host_running rfl⟩
  rw [exec_open_accepts m hq hc]
  refine ⟨fun hm => ⟨[], s.env, ?_⟩, fun hm ha => ⟨[], s.env.afterTransport, ?_⟩, fun hm ha => ⟨0, [], s.env.afterTransport, ?_⟩⟩
  · simp [State.openBody, State.accept, State.raise, hm]
  · simp [State.openBody, State.accept, State.raise, State.consultTransport, hm, ha]
  · simp [State.openBody, State.accept, State.finish, Seq.isInit, State.consultTransport, hm, ha]

/-! ### Acceptance -/

/-- Settles O39: by the ways a host operation answers; only an operation that runs on is not over. -/
theorem acceptanceFrame : Obligations.AcceptanceFrame := by
  intro i s t hi h
  obtain ⟨hq, hcases⟩ := exec_host_cases hi h
  rcases hcases with ⟨rfl, -⟩ | ⟨-, -, rfl⟩ | ⟨m, rfl, -, -, rfl⟩ | ⟨m, rfl, -, -, -, rfl⟩ | ⟨m, rfl, -, -, -, rfl⟩
  · simp
  all_goals simp [hq]

/-! ### After an error -/

/-- From Faulted, and with the session open that it implies, no operation but INIT has a meaning (60_exceptions.md R267). -/
theorem exec_faulted_refused {i : Instr} {s : State} (hi : i.format = .hostWord) (hne : i ≠ .init) (hp : s.ps = .faulted)
    (ho : s.session = .opened) : ∃ r, exec i s = .refused r := by
  cases he : exec i s with
  | refused r => exact ⟨r, rfl⟩
  | fault f => exact absurd he (exec_host_ne_fault hi s f)
  | next t =>
    obtain ⟨-, hcases⟩ := exec_host_cases hi he
    rcases hcases with ⟨-, -, hrun, -⟩ | ⟨hinit, -⟩ | ⟨m, -, hc, -⟩ | ⟨m, -, hc, -⟩ | ⟨m, -, hc, -⟩
    · rcases hrun with ⟨hinit, -⟩ | ⟨-, hconf⟩
      · exact absurd hinit hne
      · rw [hp] at hconf; cases hconf
    · exact absurd hinit hne
    all_goals rw [ho] at hc; cases hc

theorem exec_host_runs {i : Instr} {s t : State} (hi : i.format = .hostWord) (h : exec i s = .next t) (hrun : t.seq ≠ .idle) :
    t = s.accept i := by
  obtain ⟨hq, hcases⟩ := exec_host_cases hi h
  rcases hcases with ⟨rfl, -⟩ | ⟨-, -, rfl⟩ | ⟨m, -, -, -, rfl⟩ | ⟨m, -, -, -, -, rfl⟩ | ⟨m, -, -, -, -, rfl⟩
  · rfl
  all_goals exact absurd hq hrun

/-- An OPEN that fails leaves the engine idle and the session Closed. -/
theorem exec_open_failed {m : Byte} {s t : State} (h : exec (.openSession m) s = .next t) (herr : t.err ≠ .noError) :
    t.seq = .idle ∧ t.session = .closed := by
  obtain ⟨hq, hcases⟩ := exec_host_cases rfl h
  rcases hcases with ⟨rfl, -⟩ | ⟨hi, -⟩ | ⟨m, -, hc, -, rfl⟩ | ⟨m, -, hc, -, -, rfl⟩ | ⟨m, -, -, -, -, rfl⟩
  · exact absurd rfl herr
  · cases hi
  · exact ⟨hq, hc⟩
  · exact ⟨hq, hc⟩
  · exact absurd rfl herr

/-- Settles O48: Faulted implies an open session, and a failed OPEN a closed one. -/
theorem recoveryIsByInit : Obligations.RecoveryIsByInit := by
  refine ⟨fun s ⟨_, hsession, _⟩ hq hp => ?_, fun i s t hi h hrun => ?_, fun m s t h herr m' => ?_⟩
  · have ho : s.session = .opened := hsession (by rw [hp]; nofun)
    exact ⟨fun i hi hne => exec_faulted_refused hi hne hp ho, exec_init_accepts hq ho⟩
  · rw [exec_host_runs hi h hrun]
    exact ⟨rfl, rfl⟩
  · obtain ⟨hq, hc⟩ := exec_open_failed h herr
    exact ⟨_, exec_open_accepts m' hq hc⟩

end Sys2Proof.Machine
end

section
/-! O45: what a running operation still has to show on its pins and the bus is fixed once its buffer is built, and so is the trace
at its end. -/

namespace Sys2Proof.Machine

/-! ### A trace without its SMP and DLY events -/

@[simp] theorem withoutPolls_append (T U : List Event) : withoutPolls (T ++ U) = withoutPolls T ++ withoutPolls U :=
  List.filter_append _ _

@[simp] theorem withoutPolls_frames (xs : List Sym) : withoutPolls (frames xs) = frames xs := by
  induction xs with
  | nil => rfl
  | cons x xs ih =>
    rw [frames_cons, withoutPolls_append, ih]
    rfl

@[simp] theorem withoutPolls_smp (l : Bool) : withoutPolls [.smp l] = [] := rfl

@[simp] theorem withoutPolls_dly (n : Nat) : withoutPolls [.dly n] = [] := rfl

/-! ### What a micro-step shows -/

/-- The events of a panel command's group. -/
def State.groupEvents (s : State) (i : Instr) : List Event := frames ((s.groupOf i).getD [])

/-- The events of a micro-step that no error ends, SMP and DLY left out. -/
def State.shows (s : State) : Micro → List Event
  | .resetPulse => [.drv .rst true, .drv .rst false, .drv .rst true]
  | .paintXWin => s.groupEvents (.ramxwin 0 (s.w - 1))
  | .paintYWin => s.groupEvents (.ramywin 0 (s.h - 1))
  | .instr i => s.groupEvents i
  | .startWait => []
  | .poll => []
  | .enter _ => []
  | .build _ => []
  | .loadImage => []

/-- Does a micro-step leave the frame buffer alone and, if it is an instruction, send one command frame group. -/
def Micro.keepsBuffer : Micro → Bool
  | .build _ => false
  | .loadImage => false
  | .instr i => i.format == .panelOpcode
  | .resetPulse => true
  | .startWait => true
  | .poll => true
  | .enter _ => true
  | .paintXWin => true
  | .paintYWin => true

section
variable {s t u : State}

theorem SameBuffer.bufferBytes (e : SameBuffer s t) : t.bufferBytes = s.bufferBytes := by
  simp only [State.bufferBytes, State.memRead, e.len, e.fb]

theorem SameBuffer.groupOf (e : SameBuffer s t) (hc : t.cfg = s.cfg) (i : Instr) : t.groupOf i = s.groupOf i := by
  by_cases hi : i = .wrram
  · subst hi
    simp only [State.groupOf, e.bufferBytes]
  · exact State.groupOf_congr hi hc

/-- What the micro-steps show depends on the parameters and the buffer alone. -/
theorem SameBuffer.shows (e : SameBuffer s t) (hc : t.cfg = s.cfg) : t.shows = s.shows := by
  funext m
  cases m <;> simp only [State.shows, State.groupEvents, e.groupOf hc, e.w, e.h]

theorem State.exists_groupOf (s : State) {i : Instr} (hi : i.format = .panelOpcode) : ∃ xs, s.groupOf i = some xs := by
  obtain ⟨xs, hx | ⟨b, rfl, -⟩ | ⟨b, rfl, -⟩⟩ := s.exists_sends (i := i) (by rw [hi]; nofun)
  · exact ⟨xs, hx⟩
  · cases hi
  · cases hi

/-! ### One micro-step -/

/-- The micro-step `m` of the operation running at `s` has shown at `u` what it shows, and the buffer is as it was. -/
structure Passed (s : State) (m : Micro) (u : State) : Prop where
  cfg : u.cfg = s.cfg
  buffer : SameBuffer s u
  seq : ∃ n, u.seq = s.seq.after n
  trace : withoutPolls u.T = withoutPolls s.T ++ s.shows m

/-- The ways a micro-step that keeps the buffer ends: the sequencer moves on, the wait goes on, or an error has struck. -/
inductive Progress (s : State) (m : Micro) : State → Prop where
  | moves {u : State} (h : Passed s m u) : Progress s m u.advance
  | waits {u : State} (hm : m = .poll) (h : Passed s m u) : Progress s m u
  | fails {u : State} (hq : u.seq = .idle) (herr : u.err ≠ .noError) : Progress s m u

theorem progress_of_command {m : Micro} {i : Instr} (hi : i.format = .panelOpcode) (hm : s.shows m = s.groupEvents i)
    (h : continueWith (exec i s) = .next t) : Progress s m t := by
  obtain ⟨u, hu, rfl⟩ := continueWith_next h
  obtain ⟨xs, hx⟩ := s.exists_groupOf hi
  rcases s.transportOk_or_fails xs.length with hok | ⟨j, hj, hok, hf⟩
  · obtain ⟨ix, -, he⟩ := exec_sent (.inl hx) hok
    cases hu.symm.trans he
    have hbuffer : SameBuffer s ((s.afterSyms xs).setIdx ix) := ⟨by simp, by simp, by simp, by simp, by simp⟩
    exact .moves ⟨by simp, hbuffer, ⟨4 * xs.length, by simp⟩, by simp [hm, State.groupEvents, hx]⟩
  · obtain ⟨ix, -, he⟩ := exec_failed (.inl hx) (List.getElem?_eq_getElem hj) hok hf
    cases hu.symm.trans he
    exact .fails (by rw [State.advance_idle _ rfl]; rfl) (by simp)

theorem State.poll_progress (s : State) : Progress s .poll s.poll := by
  have hsample : withoutPolls s.pollOnce.T = withoutPolls s.T := by simp
  unfold State.poll
  split
  · exact .moves ⟨rfl, ⟨rfl, rfl, rfl, rfl, fun _ => rfl⟩, ⟨1, rfl⟩, by rw [hsample]; exact (List.append_nil _).symm⟩
  · split
    · exact .fails rfl nofun
    · exact .waits rfl ⟨rfl, ⟨rfl, rfl, rfl, rfl, fun _ => rfl⟩, ⟨2, by simp⟩, by rw [State.delay_T, withoutPolls_append, hsample]; rfl⟩

theorem progress_of_runMicro {m : Micro} (hm : m.keepsBuffer = true) (h : runMicro m s = .next t) : Progress s m t := by
  cases m with
  | resetPulse =>
    cases h
    have hbuffer : SameBuffer s s.resetPulse := ⟨by simp, by simp, by simp, by simp, by simp⟩
    exact .moves ⟨by simp, hbuffer, ⟨6, by simp⟩, by rw [State.resetPulse_T, withoutPolls_append]; rfl⟩
  | startWait =>
    cases h
    exact .moves (u := s.startWait) ⟨rfl, ⟨rfl, rfl, rfl, rfl, fun _ => rfl⟩, ⟨0, by simp⟩, by simp [State.shows]⟩
  | enter p =>
    cases h
    exact .moves (u := s.setPS p) ⟨rfl, ⟨rfl, rfl, rfl, rfl, fun _ => rfl⟩, ⟨0, by simp⟩, by simp [State.shows]⟩
  | poll => cases h; exact s.poll_progress
  | build c => cases hm
  | loadImage => cases hm
  | paintXWin => exact progress_of_command (i := .ramxwin 0 (s.w - 1)) rfl rfl h
  | paintYWin => exact progress_of_command (i := .ramywin 0 (s.h - 1)) rfl rfl h
  | instr i => exact progress_of_command (by simpa [Micro.keepsBuffer] using hm) rfl h

/-! ### A run -/

/-- If the operation completes without error, the trace, SMP and DLY left out, is then `E`: it is so already, or the micro-steps
still to run show what is missing. -/
inductive State.OnCourse (E : List Event) (s : State) : Prop where
  | ended (hq : s.seq = .idle) (hT : s.err = .noError → withoutPolls s.T = E)
  | running {op : Instr} {pos k : Nat} (hq : s.seq = .running op pos k)
      (hms : ((program op).drop pos).all Micro.keepsBuffer = true)
      (hT : withoutPolls s.T ++ ((program op).drop pos).flatMap s.shows = E)

variable {E : List Event}

theorem State.OnCourse.trace (h : s.OnCourse E) (hq : s.seq = .idle) (herr : s.err = .noError) : withoutPolls s.T = E := by
  cases h with
  | ended _ hT => exact hT herr
  | running hq' => rw [hq] at hq'; cases hq'

theorem Passed.advance {m : Micro} {op : Instr} {pos k : Nat} (h : Passed s m u) (hq : s.seq = .running op pos k)
    (hms : ((program op).drop (pos + 1)).all Micro.keepsBuffer = true)
    (hT : withoutPolls s.T ++ (m :: (program op).drop (pos + 1)).flatMap s.shows = E) : u.advance.OnCourse E := by
  obtain ⟨n, hn⟩ := h.seq
  have hu : u.seq = .running op pos (k + n) := by rw [hn, hq]; rfl
  rw [List.flatMap_cons, ← List.append_assoc, ← h.trace, ← h.buffer.shows h.cfg] at hT
  by_cases hl : pos + 1 < (program op).length
  · rw [u.advance_more hu hl]
    exact .running rfl hms hT
  · rw [u.advance_last hu hl]
    rw [List.drop_eq_nil_of_le (by omega), List.flatMap_nil, List.append_nil] at hT
    exact .ended rfl fun _ => hT

/-- A wait that goes on shows nothing and stays where it is. -/
theorem Passed.wait {op : Instr} {pos k : Nat} (h : Passed s .poll u) (hq : s.seq = .running op pos k)
    (hms : ((program op).drop pos).all Micro.keepsBuffer = true)
    (hT : withoutPolls s.T ++ ((program op).drop pos).flatMap s.shows = E) : u.OnCourse E := by
  obtain ⟨n, hn⟩ := h.seq
  refine .running (k := k + n) (by rw [hn, hq]; rfl) hms ?_
  rw [h.trace, h.buffer.shows h.cfg]
  simpa [State.shows] using hT

theorem State.OnCourse.step (h : s.OnCourse E) (ht : step s = .next t) (hh : s.host = []) : t.OnCourse E := by
  rcases step_cases ht with ⟨-, -, rfl⟩ | ⟨r, rest, i, -, hh', -, -⟩ | ⟨op, pos, k, m, hq, hm, he⟩
  · exact h
  · rw [hh] at hh'; cases hh'
  cases h with
  | ended hidle => rw [hq] at hidle; cases hidle
  | running hq' hms hT =>
    rw [hq] at hq'
    cases hq'
    have hdrop : (program op).drop pos = m :: (program op).drop (pos + 1) := by
      obtain ⟨hpos, rfl⟩ := List.getElem?_eq_some_iff.mp hm
      exact List.drop_eq_getElem_cons hpos
    obtain ⟨hkeeps, hrest⟩ : m.keepsBuffer = true ∧ ((program op).drop (pos + 1)).all Micro.keepsBuffer = true := by
      rwa [hdrop, List.all_cons, Bool.and_eq_true] at hms
    cases progress_of_runMicro hkeeps he with
    | moves hu => exact hu.advance hq hrest (hdrop ▸ hT)
    | waits hpoll hu => exact (hpoll ▸ hu).wait hq hms hT
    | fails hidle herr => exact .ended hidle fun hok => absurd hok herr

theorem MicroStep.host {m : Micro} (h : MicroStep s m t) : t.host = s.host := by
  cases h <;> simp

/-- No word comes to the queue. -/
theorem step_host_nil (ht : step s = .next t) (hh : s.host = []) : t.host = [] := by
  rcases step_cases ht with ⟨-, -, rfl⟩ | ⟨r, rest, i, -, hh', -, -⟩ | ⟨op, pos, k, m, hq, hm, he⟩
  · exact hh
  · rw [hh] at hh'; cases hh'
  · exact (microStep_of_runMicro hm he).host.trans hh

theorem State.OnCourse.runFor {n : Nat} (h : s.OnCourse E) (ht : runFor n s = .next t) (hh : s.host = []) : t.OnCourse E := by
  induction n generalizing s with
  | zero => cases ht; exact h
  | succ n ih =>
    simp only [Machine.runFor] at ht
    split at ht
    · next u hu => exact ih (h.step hu hh) ht (step_host_nil hu hh)
    · cases ht
    · cases ht

/-! ### What INIT and the paints show -/

theorem flatMap_shows_init (s : State) : (program .init).flatMap s.shows =
    [.drv .rst true, .drv .rst false, .drv .rst true] ++ frames [(false, 0x12)] ++ frames (configSyms s.cfg) := by
  simp [program, configure, waitIdle, setWindow, setCursor, State.shows, State.groupEvents, State.groupOf, Config.panelW,
    Config.panelH, configSyms, windowSyms]

theorem flatMap_shows_showBuffer {data : List Byte} (hw : s.w = 122) (hh : s.h = 250) (hb : s.bufferBytes = data) :
    showBuffer.flatMap s.shows = frames (paintSyms data) := by
  simp [showBuffer, setCursor, turnOnDisplay, waitIdle, State.shows, State.groupEvents, State.groupOf, hw, hh, hb, paintSyms,
    windowSyms, frames_append]

theorem State.bufferBytes_of_fb {data : List Byte} (hl : s.len.toNat = data.length) (hf : s.fb = Memory.ofBytes 0 data) :
    s.bufferBytes = data :=
  State.sentAt_bufferBytes (xs := []) (op := .clear) (pos := 0) (k := 0) (ps := s.ps) (ix := s.idx) hl hf

/-- A paint from its first micro-step: the build decides what all the later ones show. -/
theorem runFor_paint_trace {op : Instr} {c : Byte} {n k : Nat} (hprog : program op = paintProgram c)
    (hq : s.seq = .running op 0 k) (hh : s.host = []) (hrun : runFor n s = .next t) (hidle : t.seq = .idle)
    (herr : t.err = .noError) : withoutPolls t.T = withoutPolls s.T ++ frames (paintSyms (List.replicate 4000 c)) := by
  have hm : (program op)[0]? = some (.build c) := by rw [hprog]; rfl
  have hbuild := step_build s hq hm (program_build_more hm)
  have hdrop : (program op).drop 1 = showBuffer := by rw [hprog]; rfl
  cases n with
  | zero =>
    cases hrun
    rw [hq] at hidle
    cases hidle
  | succ n =>
    rw [runFor_step n hbuild] at hrun
    refine State.OnCourse.trace (State.OnCourse.runFor (.running rfl ?_ ?_) hrun hh) hidle herr
    · rw [hdrop]; decide
    · rw [hdrop, flatMap_shows_showBuffer rfl rfl (State.bufferBytes_of_fb (data := List.replicate 4000 c) List.length_replicate.symm rfl)]

/-- A paint that answers a next state runs from its first micro-step. -/
theorem exec_paint_runs {i : Instr} {c : Byte} (hi : i.format = .hostWord) (hprog : program i = paintProgram c)
    (h : exec i s = .next t) : t = s.accept i := by
  obtain ⟨hq, hcases⟩ := exec_host_cases hi h
  rcases hcases with ⟨rfl, -⟩ | ⟨rfl, -⟩ | ⟨m, rfl, -⟩ | ⟨m, rfl, -⟩ | ⟨m, rfl, -⟩
  · rfl
  all_goals cases hprog

theorem exec_paint_trace {i : Instr} {c : Byte} {n : Nat} (hi : i.format = .hostWord) (hprog : program i = paintProgram c)
    (hu : exec i s = .next u) (hh : s.host = []) (hrun : runFor n u = .next t) (hidle : t.seq = .idle) (herr : t.err = .noError) :
    withoutPolls t.T = withoutPolls s.T ++ frames (paintSyms (List.replicate 4000 c)) := by
  rw [exec_paint_runs hi hprog hu] at hrun
  exact runFor_paint_trace (s := s.accept i) hprog rfl hh hrun hidle herr

/-- An INIT runs from its first micro-step, or, without a session, has ended in an error. -/
theorem exec_init_onCourse (h : exec .init s = .next t) :
    t.OnCourse (withoutPolls s.T ++ (program .init).flatMap s.shows) ∧ t.host = s.host := by
  obtain ⟨hq, hcases⟩ := exec_host_cases rfl h
  rcases hcases with ⟨rfl, -⟩ | ⟨-, -, rfl⟩ | ⟨m, hi, -⟩ | ⟨m, hi, -⟩ | ⟨m, hi, -⟩
  · exact ⟨.running rfl (by decide) rfl, rfl⟩
  · exact ⟨.ended hq nofun, rfl⟩
  all_goals cases hi

end

/-- Settles O45: a paint from its build on, and INIT from its acceptance. -/
theorem paintsHaveNoHiddenState : Obligations.PaintsHaveNoHiddenState := by
  refine ⟨fun _ _ _ _ _ => exec_paint_trace rfl rfl, fun _ _ _ _ => exec_paint_trace rfl rfl, fun s u t n hu hh hrun hidle herr => ?_⟩
  obtain ⟨hcourse, hhost⟩ := exec_init_onCourse hu
  simpa only [flatMap_shows_init, List.append_assoc] using (hcourse.runFor hrun (hhost.trans hh)).trace hidle herr

end Sys2Proof.Machine
end

section
/-! O37, O38: where AcquisitionFailure is raised, and where a host operation has no meaning. -/

namespace Sys2Proof.Machine

/-! ### AcquisitionFailure -/

section
variable {s t : State}

theorem exec_init_closed (hq : s.seq = .idle) (hc : s.session = .closed) :
    exec .init s = .next { s with err := .acquisitionFailure, errInfo := 0, seq := .idle, fb := [] } := by
  simp [exec, execInit, State.requireIdle, State.initBody, State.accept, State.raise, hq, hc]

/-- An operation that has run ends in one of the two other errors. -/
theorem EndedInError.err_ne_acquisitionFailure (h : EndedInError s t) : t.err ≠ .acquisitionFailure := by
  rcases h.cause with ⟨he, -⟩ | ⟨he, -⟩
  all_goals rw [he]; nofun

/-- Of the ways a host operation answers only INIT's and OPEN's without a session leave this error, and they leave everything but
ERR, ERRINFO, the frame buffer and the environment. -/
theorem exec_host_acquisitionFailure {i : Instr} (hi : i.format = .hostWord) (h : exec i s = .next t)
    (herr : t.err = .acquisitionFailure) :
    s.session = .closed ∧ t.session = .closed ∧ t.T = s.T ∧ t.ps = s.ps ∧ (i = .init ∨ ∃ m, i = .openSession m) := by
  obtain ⟨-, hcases⟩ := exec_host_cases hi h
  rcases hcases with ⟨rfl, -⟩ | ⟨hinit, hc, rfl⟩ | ⟨m, -, -, -, rfl⟩ | ⟨m, hopen, hc, -, -, rfl⟩ | ⟨m, -, -, -, -, rfl⟩
  · cases herr
  · exact ⟨hc, hc, rfl, rfl, .inl hinit⟩
  · cases herr
  · exact ⟨hc, hc, rfl, rfl, .inr ⟨m, hopen⟩⟩
  · cases herr

end

/-- Settles O37: the failing OPEN and INIT, and no other host operation and no micro-step. -/
theorem acquisitionFailure : Obligations.AcquisitionFailure := by
  refine ⟨fun m s hq hc hm ha => ?_, fun s hq hc => ⟨[], exec_init_closed hq hc⟩, fun s t ht hne herr => ?_⟩
  · obtain ⟨-, hfails, -⟩ := (openOutcomes m s).1 hq hc
    obtain ⟨fb, env, he⟩ := hfails hm ha
    exact ⟨_, he, rfl, rfl, rfl, hc, rfl, rfl⟩
  · rcases step_cases ht with ⟨-, -, rfl⟩ | ⟨r, rest, i, hq, hh, hd, he⟩ | ⟨op, pos, k, m, hq, hm, he⟩
    · exact absurd herr hne
    · obtain ⟨hs, hsession, hT, hps, hi⟩ := exec_host_acquisitionFailure (decodeHostWord_format hd) he herr
      exact ⟨hq, hs, hsession, hT, hps, r, rest, i, hh, hd, hi⟩
    · rcases (microStep_of_runMicro hm he).err (by simp [hq]) with hsame | hended
      · exact absurd (hsame.symm.trans herr) hne
      · exact absurd herr hended.err_ne_acquisitionFailure

/-! ### Refusal of a host operation: its `require`s, one after the other -/

section
variable (s : State)

theorem State.requireIdle_refused_iff (k : Host.Outcome State Fault Refusal) :
    (∃ r, s.requireIdle k = .refused r) ↔ s.seq ≠ .idle ∨ ∃ r, k = .refused r := by
  unfold State.requireIdle
  split
  · next h => simp [h]
  · next h => simp [h]

theorem State.requireConfigured_refused_iff (k : Host.Outcome State Fault Refusal) :
    (∃ r, s.requireConfigured k = .refused r) ↔ s.ps ≠ .configured ∨ ∃ r, k = .refused r := by
  unfold State.requireConfigured
  split
  · next h => simp [h]
  · next h => simp [h]

theorem exec_open_refused_iff (m : Byte) :
    (∃ r, exec (.openSession m) s = .refused r) ↔ s.seq ≠ .idle ∨ s.session = .opened := by
  rw [exec, execOpen, State.requireIdle_refused_iff]
  cases hs : s.session <;> simp

theorem exec_init_refused_iff : (∃ r, exec .init s = .refused r) ↔ s.seq ≠ .idle := by
  simp [exec, execInit, State.requireIdle_refused_iff]

theorem exec_paint_refused_iff (c : Byte) :
    (∃ r, exec (.paint c) s = .refused r) ↔ s.seq ≠ .idle ∨ s.ps ≠ .configured ∨ (c ≠ 0x00 ∧ c ≠ 0xFF) := by
  rw [exec, execPaint, State.requireIdle_refused_iff, State.requireConfigured_refused_iff]
  have hcolour : ¬isColour c = true ↔ c ≠ 0x00 ∧ c ≠ 0xFF := by simp [isColour, Config.black, Config.white]
  rw [← hcolour]
  split
  · next h => simp [h]
  · next h => simp [h]

theorem exec_clear_refused_iff : (∃ r, exec .clear s = .refused r) ↔ s.seq ≠ .idle ∨ s.ps ≠ .configured := by
  simp [exec, execClear, State.requireIdle_refused_iff, State.requireConfigured_refused_iff]

theorem exec_paintImage_refused_iff :
    (∃ r, exec .paintImage s = .refused r) ↔ s.seq ≠ .idle ∨ s.ps ≠ .configured ∨ s.port.length ≠ 4000 := by
  rw [exec, execPaintImage, State.requireIdle_refused_iff, State.requireConfigured_refused_iff, Config.fbLen]
  split
  · next h => simp [h]
  · next h => simp [h]

theorem exec_sleep_refused_iff : (∃ r, exec .sleep s = .refused r) ↔ s.seq ≠ .idle ∨ s.ps ≠ .configured := by
  simp [exec, execSleep, State.requireIdle_refused_iff, State.requireConfigured_refused_iff]

end

/-- Settles O38: a reserved word at `hostStep`, and the preconditions operation by operation. -/
theorem operationsWithoutAMeaning : Obligations.OperationsWithoutAMeaning := by
  refine ⟨fun s r rest e hq hh hd => ?_, fun i s hi => ⟨exec_host_ne_fault hi s, ?_⟩⟩
  · rw [step_idle s hq, hostStep_refuses hh hd]
  · cases i with
    | openSession m => simp [exec_open_refused_iff]
    | init => simp [exec_init_refused_iff]
    | paint c => simp [exec_paint_refused_iff]
    | clear => simp [exec_clear_refused_iff]
    | paintImage => simp [exec_paintImage_refused_iff]
    | sleep => simp [exec_sleep_refused_iff]
    | _ => cases hi

end Sys2Proof.Machine
end

section
/-! O9: the framing of the bus. Every operation adds to the trace either one closed frame or events that leave CS and DC alone,
and stands outside a frame afterwards. -/

namespace Sys2Proof.Machine

/-! ### The bus over a trace -/

theorem BusView.after_append (v : BusView) (T U : List Event) : v.after (T ++ U) = (v.after T).bind fun u => u.after U := by
  induction T generalizing v with
  | nil => rfl
  | cons e T ih => simp [BusView.after, ih, Option.bind_assoc]

/-- One whole frame, seen from outside a frame: DC is driven, one byte sent, and CS is high again. -/
theorem BusView.after_frame {v : BusView} (hv : v.cs = true) (x : Sym) :
    v.after (frame x) = some { cs := true, dc := some x.1, sent := true } := by
  simp [frame, BusView.after, BusView.see, hv]

/-- The events that stand outside the frames and move neither CS nor DC. -/
def Event.betweenFrames : Event → Bool
  | .drv .dc _ => false
  | .drv .cs _ => false
  | .drv .rst _ => true
  | .tx _ => false
  | .smp _ => true
  | .dly _ => true

theorem BusView.see_betweenFrames {v : BusView} (hv : v.cs = true) {e : Event} (he : e.betweenFrames = true) :
    v.see e = some v := by
  cases e with
  | drv p l =>
    cases p with
    | rst => simp [BusView.see, hv]
    | dc => cases he
    | cs => cases he
  | tx b => cases he
  | smp l => simp [BusView.see, hv]
  | dly n => simp [BusView.see, hv]

theorem BusView.after_betweenFrames {v : BusView} (hv : v.cs = true) {ev : List Event}
    (hev : ev.all Event.betweenFrames = true) : v.after ev = some v := by
  induction ev with
  | nil => rfl
  | cons e ev ih =>
    rw [List.all_cons, Bool.and_eq_true] at hev
    obtain ⟨he, hrest⟩ := hev
    simp [BusView.after, BusView.see_betweenFrames hv he, ih hrest]

/-! ### The two ways an operation continues a well-framed trace -/

section
variable {s t : State}

/-- A whole frame has been added, and the pins are as it leaves them. -/
theorem State.Framed.append_frame (h : s.Framed) (x : Sym) (hT : t.T = s.T ++ frame x) (hcs : t.pinCS = true)
    (hdc : t.pinDC = x.1) : t.Framed := by
  obtain ⟨v, hv, hout, -, -⟩ := h
  refine ⟨{ cs := true, dc := some x.1, sent := true }, ?_, rfl, hcs, fun l hl => hdc.trans (Option.some.inj hl)⟩
  rw [hT, BusView.after_append, hv, Option.bind_some, BusView.after_frame hout]

/-- Events between frames have been added, and CS and DC are as they were. -/
theorem State.Framed.append_betweenFrames (h : s.Framed) {ev : List Event} (hev : ev.all Event.betweenFrames = true)
    (hT : t.T = s.T ++ ev) (hcs : t.pinCS = s.pinCS) (hdc : t.pinDC = s.pinDC) : t.Framed := by
  obtain ⟨v, hv, hout, hpin, hlatch⟩ := h
  refine ⟨v, ?_, hout, hcs.trans hpin, fun l hl => hdc.trans (hlatch l hl)⟩
  rw [hT, BusView.after_append, hv, Option.bind_some, BusView.after_betweenFrames hout hev]

end

/-! ### Every operation keeps the framing -/

/-- A codec call adds its frame, whether the byte is sent or the transport fails it (40_codec.md R120, R121). -/
theorem State.sendByte_framed (s : State) (dc : Bool) (b : Byte) (h : s.Framed) : (s.sendByte dc b).state.Framed := by
  rw [s.sendByte_state]
  split
  · rw [s.raise_afterSyms_singleton (dc, b)]
    exact h.append_frame (dc, b) rfl rfl rfl
  · exact h.append_frame (dc, b) (by simp) rfl rfl

/-- The codec alone sends bytes; the reset pulse, a poll and a delay stand between frames; nothing else emits an event or moves
CS or DC, so the framing of the state after it is, by definition, that of the state before. -/
theorem kept_framed : Kept State.Framed where
  byte s dc b h := s.sendByte_framed dc b h
  reset s h := h.append_betweenFrames rfl s.resetPulse_T s.resetPulse_pinCS s.resetPulse_pinDC
  pollOnce s h := h.append_betweenFrames rfl s.pollOnce_T s.pollOnce_pinCS s.pollOnce_pinDC
  delay s n h := h.append_betweenFrames rfl (s.delay_T n) (s.delay_pinCS n) (s.delay_pinDC n)
  idx _ _ h := h
  present _ _ _ h := h
  accept _ _ h := h
  finish _ h := h
  raise _ _ _ h := h
  opened _ h := h
  transport _ h := h
  moved _ _ _ _ h := h
  setPS _ _ h := h
  build _ _ _ _ _ h := h
  load _ h := h
  startWait _ h := h

/-- Settles O9: every operation of the machine keeps the framing. -/
theorem everyStepKeepsFraming : Obligations.EveryStepKeepsFraming :=
  fun _ _ h ht => kept_framed.step h ht

end Sys2Proof.Machine
end

section
/-! O49: the state after reset. -/

namespace Sys2Proof.Machine

/-- Settles O49: the fields as `State.reset` writes them, and the step of an idle engine that no word waits for. -/
theorem resetState : Obligations.ResetState := by
  obtain ⟨-, -, idleStep, -⟩ := stepRunsTheDecodedInstruction
  exact ⟨rfl, rfl, rfl, rfl, rfl, rfl, rfl, idleStep State.reset rfl rfl⟩

end Sys2Proof.Machine
end
